-- ==== Sys2Proof/Word.lean ====
section
/-! DEFINITION. The two bit-vector types of the core: the byte and the 16-bit word (spec R8, R11). -/

namespace Sys2Proof

/-- A byte: the width of A, X, Y, SP and of every bus transfer (R8, R74). -/
abbrev Byte := BitVec 8

/-- A 16-bit word: the width of PC and of every address (R8, R70). -/
abbrev Word := BitVec 16

end Sys2Proof
end

