-- ==== Sys2Proof/Config.lean ====
section
/-! DEFINITION. What is fixed when a core is built (R9, R10), the events it puts out (R471), and the values the spec leaves
open, each an uninterpreted constant (no proof can know its value). -/

namespace Sys2Proof

/-- `P_VARIANT` (R2): which of the two opcode tables and decimal modes the core has. -/
inductive Variant where
  | nmos6502
  | cmos65c02
  deriving DecidableEq, Repr

/-- The hook outputs of the core (R423). `ret` is the spec's `return`. -/
inductive Hook where
  | call
  | ret
  | debug
  deriving DecidableEq, Repr

/-- One event of the core's output trace (R83, R471). `cycle` is the `cycleCount` argument of the access: the value of
`cycles` before the access's own increment (R89). -/
inductive BusEvent where
  | read (addr : Word) (cycle : Nat)
  | write (addr : Word) (value : Byte) (cycle : Nat)
  | hook (h : Hook)
  deriving DecidableEq, Repr

/-- An inclusive range of addresses that the bus answers as RAM: a read returns the byte last written there (R72's special
case, a premise a claim adds and never a property of the bus). -/
structure Region where
  first : Nat
  last  : Nat
  deriving DecidableEq, Repr

/-- `P_ILLEGAL_LEN(op)` and `P_ILLEGAL_CYCLES(op)` of one NMOS illegal opcode (R9, R385): the length is
`1 + operandBytes`, so 1, 2 or 3; the cycle count is `1 + idleCycles`, so at least 1. -/
structure IllegalRow where
  op           : Byte
  operandBytes : Fin 3
  idleCycles   : Nat
  deriving DecidableEq, Repr

/-- The parameters of the core (R9) and the part of the address space that the bus answers as RAM. Fixed at construction and
written by no step (R10); carried as data so that every claim holds for every value (log 1). -/
structure Config where
  /-- `P_VARIANT` -/
  variant          : Variant
  /-- `P_JMP_IND_FIXED` (R321) -/
  jmpIndFixed      : Bool
  /-- `P_HWINT_PUSHED_B` (R408) -/
  hwIntPushedB     : Bool
  /-- `P_NMOS_HWINT_CLEARS_D` (R410) -/
  nmosHwIntClearsD : Bool
  /-- `P_ILLEGAL_LEN`, `P_ILLEGAL_CYCLES`; an opcode with no row has the free values below (log 8) -/
  illegalRows      : List IllegalRow
  /-- the addresses the bus answers as RAM; every other read is answered by `Config.busRead` (log 5) -/
  ram              : List Region
  deriving DecidableEq, Repr

/-- The defaults of R9 for a variant, with no row for the illegal opcodes and the RAM premise for the whole address space
(log 6). -/
def Config.default (v : Variant) : Config where
  variant := v
  jmpIndFixed := v == .cmos65c02
  hwIntPushedB := false
  nmosHwIntClearsD := false
  illegalRows := []
  ram := [⟨0x0000, 0xFFFF⟩]

/-- FREE VALUE (log 5): what the bus answers a read outside the RAM part, from the whole history of events (newest first), the
address and the cycle count (R71). -/
opaque Config.busRead (history : List BusEvent) (addr : Word) (cycle : Nat) : Byte

/-- FREE VALUE (log 15): what the side-effect-free `readConst` shows of an address outside the RAM part (R73). -/
opaque Config.busInspect (history : List BusEvent) (addr : Word) : Byte

/-- FREE VALUE (log 8): `P_ILLEGAL_LEN(op) - 1` of an opcode the configuration gives no row. -/
opaque Config.illegalOperandBytes (op : Byte) : Fin 3

/-- FREE VALUE (log 8): `P_ILLEGAL_CYCLES(op) - 1` of an opcode the configuration gives no row. -/
opaque Config.illegalIdleCycles (op : Byte) : Nat

end Sys2Proof
end

