-- ==== Sys2Proof/Syntax.lean ====
section
/-! DEFINITION. The instructions: one constructor per mnemonic of the opcode table, the operand form (addressing mode) its
argument, so that mnemonic and form name one row. The operand BYTES are no part of an instruction: the opcode byte alone
selects it (R100), and its micro-ops read the operand bytes from the bus in their own cycles (R88, log 9). -/

namespace Sys2Proof

/-- The addressing modes with a memory operand (R101). -/
inductive AddrMode where
  | zp   -- `$nn`
  | zpx  -- `$nn,X`
  | zpy  -- `$nn,Y`
  | abs  -- `$nnnn`
  | abx  -- `$nnnn,X`
  | aby  -- `$nnnn,Y`
  | izx  -- `($nn,X)`
  | izy  -- `($nn),Y`
  | izp  -- `($nn)`, 65C02
  deriving DecidableEq, Repr

/-- The operand of a read-class instruction (R144 class R): the immediate byte or a byte of memory. -/
inductive ReadMode where
  | imm
  | mem (m : AddrMode)
  deriving DecidableEq, Repr

/-- The operand of a shift, rotate, INC or DEC: the accumulator, or a byte of memory read and written back (class M). -/
inductive RmwMode where
  | acc
  | mem (m : AddrMode)
  deriving DecidableEq, Repr

/-- The three forms of JMP (R320 to R322). -/
inductive JmpMode where
  | abs
  | ind
  | iax
  deriving DecidableEq, Repr

/-- The forms of NOP (R370 to R376). A form that stands at several opcodes says which. -/
inductive NopForm where
  | imp               -- 0xEA, both variants
  | imp1 (op : Byte)  -- columns x3 and xB of the 65C02
  | imm  (op : Byte)
  | zp                -- 0x44
  | zpx  (op : Byte)
  | abs  (op : Byte)
  | abs8              -- 0x5C
  deriving DecidableEq, Repr

/-- The instructions of both variants (spec/opcode_table.json). -/
inductive Instr where
  -- loads, stores and transfers (41)
  | lda (m : ReadMode)
  | ldx (m : ReadMode)
  | ldy (m : ReadMode)
  | sta (m : AddrMode)
  | stx (m : AddrMode)
  | sty (m : AddrMode)
  | stz (m : AddrMode)
  | tax
  | tay
  | txa
  | tya
  | tsx
  | txs
  -- arithmetic (42)
  | adc (m : ReadMode)
  | sbc (m : ReadMode)
  | cmp (m : ReadMode)
  | cpx (m : ReadMode)
  | cpy (m : ReadMode)
  | inc (m : RmwMode)
  | dec (m : RmwMode)
  | inx
  | iny
  | dex
  | dey
  -- logic, shifts and bit instructions (43)
  | and (m : ReadMode)
  | ora (m : ReadMode)
  | eor (m : ReadMode)
  | bit (m : ReadMode)
  | asl (m : RmwMode)
  | lsr (m : RmwMode)
  | rol (m : RmwMode)
  | ror (m : RmwMode)
  | tsb (m : AddrMode)
  | trb (m : AddrMode)
  | rmb0
  | rmb1
  | rmb2
  | rmb3
  | rmb4
  | rmb5
  | rmb6
  | rmb7
  | smb0
  | smb1
  | smb2
  | smb3
  | smb4
  | smb5
  | smb6
  | smb7
  -- control transfer (44)
  | bcc
  | bcs
  | beq
  | bne
  | bmi
  | bpl
  | bvc
  | bvs
  | bra
  | jmp (m : JmpMode)
  | jsr
  | rts
  | rti
  | bbr0
  | bbr1
  | bbr2
  | bbr3
  | bbr4
  | bbr5
  | bbr6
  | bbr7
  | bbs0
  | bbs1
  | bbs2
  | bbs3
  | bbs4
  | bbs5
  | bbs6
  | bbs7
  | brk
  -- stack, flags, no-operation and the illegal stub (45)
  | pha
  | php
  | phx
  | phy
  | pla
  | plp
  | plx
  | ply
  | clc
  | sec
  | cli
  | sei
  | cld
  | sed
  | clv
  | nop (f : NopForm)
  | illegal (op : Byte)
  deriving DecidableEq, Repr

/-- The operand bytes that follow an opcode (R101): none, byte 1, or bytes 1 and 2. -/
inductive Operand where
  | none
  | one (b1 : Byte)
  | two (b1 b2 : Byte)
  deriving DecidableEq, Repr

/-- The format names of the opcode table (R101). -/
inductive Format where
  | imp | acc | imp1 | imm | zp | zpx | zpy | izx | izy | izp | rel | abs | abx | aby | ind | iax | abs8 | zpr | ill
  deriving DecidableEq, Repr

/-- The flow classes of R109, as `fields.flow` of the opcode table spells them. -/
inductive FlowClass where
  | call | ret | branch | jump | interrupt | none
  deriving DecidableEq, Repr

/-- The descriptor of an opcode (R108), with the classes the scheduler reads (R109). -/
structure Descriptor where
  mnemonic      : String
  format        : Format
  byteLength    : Nat
  cycles        : Nat
  flow          : FlowClass
  isIllegal     : Bool
  isFlowControl : Bool
  deriving DecidableEq, Repr

/-- Why a list of bytes is no instruction: it ends too early. (No opcode is refused: R100, R113.) -/
inductive DecodeError where
  /-- there is no opcode byte -/
  | noOpcode
  /-- the bytes end inside the operand of the instruction the opcode selects -/
  | truncatedOperand
  deriving DecidableEq, Repr

/-- A decoded instruction with its operand bytes and the bytes after it. -/
structure Decoded where
  instr   : Instr
  operand : Operand
  rest    : List Byte
  deriving DecidableEq, Repr

end Sys2Proof
end

