-- ==== Sys2Proof/WellFormed.lean ====
section
/-! DEFINITION. Which instructions a variant has: the forms the rules of 41 to 45 list under "Encodings", the 65C02-only ones
refused on the NMOS core (R110, R111), the illegal stub refused on the 65C02 (R386). -/

namespace Sys2Proof

/-- The forms of LDA, ADC, SBC, CMP, AND, ORA and EOR (R200, R233, R237, R239, R270 to R272): every read mode but `zp,Y`, and
`(zp)` on the 65C02 only. -/
def ReadMode.okAlu (v : Variant) : ReadMode → Bool
  | .imm => true
  | .mem .zp => true
  | .mem .zpx => true
  | .mem .zpy => false
  | .mem .abs => true
  | .mem .abx => true
  | .mem .aby => true
  | .mem .izx => true
  | .mem .izy => true
  | .mem .izp => v == .cmos65c02

/-- LDX (R201): indexed by Y only. -/
def ReadMode.okLdx : ReadMode → Bool
  | .imm => true
  | .mem .zp => true
  | .mem .zpy => true
  | .mem .abs => true
  | .mem .aby => true
  | .mem .zpx => false
  | .mem .abx => false
  | .mem .izx => false
  | .mem .izy => false
  | .mem .izp => false

/-- LDY (R202): indexed by X only. -/
def ReadMode.okLdy : ReadMode → Bool
  | .imm => true
  | .mem .zp => true
  | .mem .zpx => true
  | .mem .abs => true
  | .mem .abx => true
  | .mem .zpy => false
  | .mem .aby => false
  | .mem .izx => false
  | .mem .izy => false
  | .mem .izp => false

/-- CPX and CPY (R240, R241). -/
def ReadMode.okCompareIndex : ReadMode → Bool
  | .imm => true
  | .mem .zp => true
  | .mem .abs => true
  | .mem .zpx => false
  | .mem .zpy => false
  | .mem .abx => false
  | .mem .aby => false
  | .mem .izx => false
  | .mem .izy => false
  | .mem .izp => false

/-- BIT (R273): the immediate, `zp,X` and `abs,X` forms on the 65C02 only. -/
def ReadMode.okBit (v : Variant) : ReadMode → Bool
  | .imm => v == .cmos65c02
  | .mem .zp => true
  | .mem .abs => true
  | .mem .zpx => v == .cmos65c02
  | .mem .abx => v == .cmos65c02
  | .mem .zpy => false
  | .mem .aby => false
  | .mem .izx => false
  | .mem .izy => false
  | .mem .izp => false

/-- STA (R203). -/
def AddrMode.okSta (v : Variant) : AddrMode → Bool
  | .zp => true
  | .zpx => true
  | .zpy => false
  | .abs => true
  | .abx => true
  | .aby => true
  | .izx => true
  | .izy => true
  | .izp => v == .cmos65c02

/-- STX (R204). -/
def AddrMode.okStx : AddrMode → Bool
  | .zp => true
  | .zpy => true
  | .abs => true
  | .zpx => false
  | .abx => false
  | .aby => false
  | .izx => false
  | .izy => false
  | .izp => false

/-- STY (R205). -/
def AddrMode.okSty : AddrMode → Bool
  | .zp => true
  | .zpx => true
  | .abs => true
  | .zpy => false
  | .abx => false
  | .aby => false
  | .izx => false
  | .izy => false
  | .izp => false

/-- The memory forms of the shifts, rotates, INC and DEC, and of STZ (R206, R242, R244, R274 to R277). -/
def AddrMode.okZeroPageOrAbsoluteX : AddrMode → Bool
  | .zp => true
  | .zpx => true
  | .abs => true
  | .abx => true
  | .zpy => false
  | .aby => false
  | .izx => false
  | .izy => false
  | .izp => false

/-- TSB and TRB (R278, R279). -/
def AddrMode.okTestSet : AddrMode → Bool
  | .zp => true
  | .abs => true
  | .zpx => false
  | .zpy => false
  | .abx => false
  | .aby => false
  | .izx => false
  | .izy => false
  | .izp => false

/-- ASL, LSR, ROL and ROR (R274 to R277). -/
def RmwMode.okShift : RmwMode → Bool
  | .acc => true
  | .mem m => m.okZeroPageOrAbsoluteX

/-- INC and DEC: the accumulator form on the 65C02 only (R242 to R245). -/
def RmwMode.okIncDec (v : Variant) : RmwMode → Bool
  | .acc => v == .cmos65c02
  | .mem m => m.okZeroPageOrAbsoluteX

/-- The opcodes of the NOP forms (R112, R370 to R376); all but 0xEA on the 65C02 only. -/
def NopForm.ok (v : Variant) : NopForm → Bool
  | .imp => true
  | .imp1 op => v == .cmos65c02 && (op &&& 0x07 == 0x03)
  | .imm op => v == .cmos65c02 && [0x02, 0x22, 0x42, 0x62, 0x82, 0xC2, 0xE2].contains op
  | .zp => v == .cmos65c02
  | .zpx op => v == .cmos65c02 && [0x54, 0xD4, 0xF4].contains op
  | .abs op => v == .cmos65c02 && [0xDC, 0xFC].contains op
  | .abs8 => v == .cmos65c02

/-- The 105 opcodes that are illegal on the NMOS core (R111): columns x3, x7, xB and xF, and the listed ones. -/
def nmosIllegal (op : Byte) : Bool :=
  op &&& 0x03 == 0x03 ||
  [0x02, 0x12, 0x22, 0x32, 0x42, 0x52, 0x62, 0x72, 0x82, 0x92, 0xB2, 0xD2, 0xF2, 0xC2, 0xE2].contains op ||
  [0x04, 0x14, 0x34, 0x44, 0x54, 0x64, 0x74, 0xD4, 0xF4].contains op ||
  [0x0C, 0x1C, 0x3C, 0x5C, 0x7C, 0xDC, 0xFC].contains op ||
  [0x1A, 0x3A, 0x5A, 0x7A, 0xDA, 0xFA].contains op ||
  [0x80, 0x89].contains op ||
  [0x9C, 0x9E].contains op

/-- The instruction is one of the variant's opcode table (R110 to R113, R386). -/
def Instr.wf (v : Variant) : Instr → Bool
  | .lda m => m.okAlu v
  | .ldx m => m.okLdx
  | .ldy m => m.okLdy
  | .sta m => m.okSta v
  | .stx m => m.okStx
  | .sty m => m.okSty
  | .stz m => v == .cmos65c02 && m.okZeroPageOrAbsoluteX
  | .tax | .tay | .txa | .tya | .tsx | .txs => true
  | .adc m => m.okAlu v
  | .sbc m => m.okAlu v
  | .cmp m => m.okAlu v
  | .cpx m => m.okCompareIndex
  | .cpy m => m.okCompareIndex
  | .inc m => m.okIncDec v
  | .dec m => m.okIncDec v
  | .inx | .iny | .dex | .dey => true
  | .and m => m.okAlu v
  | .ora m => m.okAlu v
  | .eor m => m.okAlu v
  | .bit m => m.okBit v
  | .asl m => m.okShift
  | .lsr m => m.okShift
  | .rol m => m.okShift
  | .ror m => m.okShift
  | .tsb m => v == .cmos65c02 && m.okTestSet
  | .trb m => v == .cmos65c02 && m.okTestSet
  | .rmb0 | .rmb1 | .rmb2 | .rmb3 | .rmb4 | .rmb5 | .rmb6 | .rmb7 => v == .cmos65c02
  | .smb0 | .smb1 | .smb2 | .smb3 | .smb4 | .smb5 | .smb6 | .smb7 => v == .cmos65c02
  | .bcc | .bcs | .beq | .bne | .bmi | .bpl | .bvc | .bvs => true
  | .bra => v == .cmos65c02
  | .jmp .abs => true
  | .jmp .ind => true
  | .jmp .iax => v == .cmos65c02
  | .jsr | .rts | .rti => true
  | .bbr0 | .bbr1 | .bbr2 | .bbr3 | .bbr4 | .bbr5 | .bbr6 | .bbr7 => v == .cmos65c02
  | .bbs0 | .bbs1 | .bbs2 | .bbs3 | .bbs4 | .bbs5 | .bbs6 | .bbs7 => v == .cmos65c02
  | .brk => true
  | .pha | .php | .pla | .plp => true
  | .phx | .phy | .plx | .ply => v == .cmos65c02
  | .clc | .sec | .cli | .sei | .cld | .sed | .clv => true
  | .nop f => f.ok v
  | .illegal op => v == .nmos6502 && nmosIllegal op

end Sys2Proof
end

