-- ==== Sys2Proof/Decode.lean ====
section
/-! DEFINITION. Opcode to instruction (the maps of R114 and R115), bytes to instruction and operand, and back; the descriptor
of each opcode (R108, R109). The core decodes by table lookup, never from bit groups (R107). -/

namespace Sys2Proof

/-- Row 0x of the map. -/
def opcodeRow0 : List Instr :=
  [
   .brk, .ora (.mem .izx), .nop (.imm 0x02), .nop (.imp1 0x03),
   .tsb .zp, .ora (.mem .zp), .asl (.mem .zp), .rmb0,
   .php, .ora .imm, .asl .acc, .nop (.imp1 0x0B),
   .tsb .abs, .ora (.mem .abs), .asl (.mem .abs), .bbr0 ]

/-- Row 1x of the map. -/
def opcodeRow1 : List Instr :=
  [
   .bpl, .ora (.mem .izy), .ora (.mem .izp), .nop (.imp1 0x13),
   .trb .zp, .ora (.mem .zpx), .asl (.mem .zpx), .rmb1,
   .clc, .ora (.mem .aby), .inc .acc, .nop (.imp1 0x1B),
   .trb .abs, .ora (.mem .abx), .asl (.mem .abx), .bbr1 ]

/-- Row 2x of the map. -/
def opcodeRow2 : List Instr :=
  [
   .jsr, .and (.mem .izx), .nop (.imm 0x22), .nop (.imp1 0x23),
   .bit (.mem .zp), .and (.mem .zp), .rol (.mem .zp), .rmb2,
   .plp, .and .imm, .rol .acc, .nop (.imp1 0x2B),
   .bit (.mem .abs), .and (.mem .abs), .rol (.mem .abs), .bbr2 ]

/-- Row 3x of the map. -/
def opcodeRow3 : List Instr :=
  [
   .bmi, .and (.mem .izy), .and (.mem .izp), .nop (.imp1 0x33),
   .bit (.mem .zpx), .and (.mem .zpx), .rol (.mem .zpx), .rmb3,
   .sec, .and (.mem .aby), .dec .acc, .nop (.imp1 0x3B),
   .bit (.mem .abx), .and (.mem .abx), .rol (.mem .abx), .bbr3 ]

/-- Row 4x of the map. -/
def opcodeRow4 : List Instr :=
  [
   .rti, .eor (.mem .izx), .nop (.imm 0x42), .nop (.imp1 0x43),
   .nop .zp, .eor (.mem .zp), .lsr (.mem .zp), .rmb4,
   .pha, .eor .imm, .lsr .acc, .nop (.imp1 0x4B),
   .jmp .abs, .eor (.mem .abs), .lsr (.mem .abs), .bbr4 ]

/-- Row 5x of the map. -/
def opcodeRow5 : List Instr :=
  [
   .bvc, .eor (.mem .izy), .eor (.mem .izp), .nop (.imp1 0x53),
   .nop (.zpx 0x54), .eor (.mem .zpx), .lsr (.mem .zpx), .rmb5,
   .cli, .eor (.mem .aby), .phy, .nop (.imp1 0x5B),
   .nop .abs8, .eor (.mem .abx), .lsr (.mem .abx), .bbr5 ]

/-- Row 6x of the map. -/
def opcodeRow6 : List Instr :=
  [
   .rts, .adc (.mem .izx), .nop (.imm 0x62), .nop (.imp1 0x63),
   .stz .zp, .adc (.mem .zp), .ror (.mem .zp), .rmb6,
   .pla, .adc .imm, .ror .acc, .nop (.imp1 0x6B),
   .jmp .ind, .adc (.mem .abs), .ror (.mem .abs), .bbr6 ]

/-- Row 7x of the map. -/
def opcodeRow7 : List Instr :=
  [
   .bvs, .adc (.mem .izy), .adc (.mem .izp), .nop (.imp1 0x73),
   .stz .zpx, .adc (.mem .zpx), .ror (.mem .zpx), .rmb7,
   .sei, .adc (.mem .aby), .ply, .nop (.imp1 0x7B),
   .jmp .iax, .adc (.mem .abx), .ror (.mem .abx), .bbr7 ]

/-- Row 8x of the map. -/
def opcodeRow8 : List Instr :=
  [
   .bra, .sta .izx, .nop (.imm 0x82), .nop (.imp1 0x83),
   .sty .zp, .sta .zp, .stx .zp, .smb0,
   .dey, .bit .imm, .txa, .nop (.imp1 0x8B),
   .sty .abs, .sta .abs, .stx .abs, .bbs0 ]

/-- Row 9x of the map. -/
def opcodeRow9 : List Instr :=
  [
   .bcc, .sta .izy, .sta .izp, .nop (.imp1 0x93),
   .sty .zpx, .sta .zpx, .stx .zpy, .smb1,
   .tya, .sta .aby, .txs, .nop (.imp1 0x9B),
   .stz .abs, .sta .abx, .stz .abx, .bbs1 ]

/-- Row Ax of the map. -/
def opcodeRowA : List Instr :=
  [
   .ldy .imm, .lda (.mem .izx), .ldx .imm, .nop (.imp1 0xA3),
   .ldy (.mem .zp), .lda (.mem .zp), .ldx (.mem .zp), .smb2,
   .tay, .lda .imm, .tax, .nop (.imp1 0xAB),
   .ldy (.mem .abs), .lda (.mem .abs), .ldx (.mem .abs), .bbs2 ]

/-- Row Bx of the map. -/
def opcodeRowB : List Instr :=
  [
   .bcs, .lda (.mem .izy), .lda (.mem .izp), .nop (.imp1 0xB3),
   .ldy (.mem .zpx), .lda (.mem .zpx), .ldx (.mem .zpy), .smb3,
   .clv, .lda (.mem .aby), .tsx, .nop (.imp1 0xBB),
   .ldy (.mem .abx), .lda (.mem .abx), .ldx (.mem .aby), .bbs3 ]

/-- Row Cx of the map. -/
def opcodeRowC : List Instr :=
  [
   .cpy .imm, .cmp (.mem .izx), .nop (.imm 0xC2), .nop (.imp1 0xC3),
   .cpy (.mem .zp), .cmp (.mem .zp), .dec (.mem .zp), .smb4,
   .iny, .cmp .imm, .dex, .nop (.imp1 0xCB),
   .cpy (.mem .abs), .cmp (.mem .abs), .dec (.mem .abs), .bbs4 ]

/-- Row Dx of the map. -/
def opcodeRowD : List Instr :=
  [
   .bne, .cmp (.mem .izy), .cmp (.mem .izp), .nop (.imp1 0xD3),
   .nop (.zpx 0xD4), .cmp (.mem .zpx), .dec (.mem .zpx), .smb5,
   .cld, .cmp (.mem .aby), .phx, .nop (.imp1 0xDB),
   .nop (.abs 0xDC), .cmp (.mem .abx), .dec (.mem .abx), .bbs5 ]

/-- Row Ex of the map. -/
def opcodeRowE : List Instr :=
  [
   .cpx .imm, .sbc (.mem .izx), .nop (.imm 0xE2), .nop (.imp1 0xE3),
   .cpx (.mem .zp), .sbc (.mem .zp), .inc (.mem .zp), .smb6,
   .inx, .sbc .imm, .nop .imp, .nop (.imp1 0xEB),
   .cpx (.mem .abs), .sbc (.mem .abs), .inc (.mem .abs), .bbs6 ]

/-- Row Fx of the map. -/
def opcodeRowF : List Instr :=
  [
   .beq, .sbc (.mem .izy), .sbc (.mem .izp), .nop (.imp1 0xF3),
   .nop (.zpx 0xF4), .sbc (.mem .zpx), .inc (.mem .zpx), .smb7,
   .sed, .sbc (.mem .aby), .plx, .nop (.imp1 0xFB),
   .nop (.abs 0xFC), .sbc (.mem .abx), .inc (.mem .abx), .bbs7 ]

/-- The opcode map of CMOS65C02 (R115): 16 rows of 16. -/
def opcodeMap : List (List Instr) :=
  [opcodeRow0, opcodeRow1, opcodeRow2, opcodeRow3, opcodeRow4, opcodeRow5, opcodeRow6, opcodeRow7] ++
  [opcodeRow8, opcodeRow9, opcodeRowA, opcodeRowB, opcodeRowC, opcodeRowD, opcodeRowE, opcodeRowF]

/-- The CMOS65C02 entry of an opcode: row `op[7:4]`, column `op[3:0]`. The map has an entry for every opcode, so the default
is never used (`Laws.opcodeMap_total`). -/
def cmosEntry (op : Byte) : Instr :=
  (((opcodeMap[op.toNat / 16]?).getD [])[op.toNat % 16]?).getD (.illegal op)

/-- The table entry of an opcode (R100, R110): the NMOS table is the 65C02 one with the illegal stub at the opcodes of R111. -/
def decodeOpcode (v : Variant) (op : Byte) : Instr :=
  match v with
  | .cmos65c02 => cmosEntry op
  | .nmos6502 => if nmosIllegal op then .illegal op else cmosEntry op

/-- The format of a memory operand (R101). -/
def AddrMode.format : AddrMode → Format
  | .zp => .zp
  | .zpx => .zpx
  | .zpy => .zpy
  | .abs => .abs
  | .abx => .abx
  | .aby => .aby
  | .izx => .izx
  | .izy => .izy
  | .izp => .izp

def ReadMode.format : ReadMode → Format
  | .imm => .imm
  | .mem m => m.format

def RmwMode.format : RmwMode → Format
  | .acc => .acc
  | .mem m => m.format

/-- The addressing mode of the descriptor (R101, R108). -/
def Instr.format : Instr → Format
  | .lda m | .ldx m | .ldy m | .adc m | .sbc m | .cmp m | .cpx m | .cpy m => m.format
  | .and m | .ora m | .eor m | .bit m => m.format
  | .sta m | .stx m | .sty m | .stz m | .tsb m | .trb m => m.format
  | .inc m | .dec m | .asl m | .lsr m | .rol m | .ror m => m.format
  | .rmb0 | .rmb1 | .rmb2 | .rmb3 | .rmb4 | .rmb5 | .rmb6 | .rmb7 => .zp
  | .smb0 | .smb1 | .smb2 | .smb3 | .smb4 | .smb5 | .smb6 | .smb7 => .zp
  | .bcc | .bcs | .beq | .bne | .bmi | .bpl | .bvc | .bvs | .bra => .rel
  | .bbr0 | .bbr1 | .bbr2 | .bbr3 | .bbr4 | .bbr5 | .bbr6 | .bbr7 => .zpr
  | .bbs0 | .bbs1 | .bbs2 | .bbs3 | .bbs4 | .bbs5 | .bbs6 | .bbs7 => .zpr
  | .jmp .abs => .abs
  | .jmp .ind => .ind
  | .jmp .iax => .iax
  | .jsr => .abs
  | .tax | .tay | .txa | .tya | .tsx | .txs | .inx | .iny | .dex | .dey => .imp
  | .rts | .rti | .brk | .pha | .php | .phx | .phy | .pla | .plp | .plx | .ply => .imp
  | .clc | .sec | .cli | .sei | .cld | .sed | .clv => .imp
  | .nop .imp => .imp
  | .nop (.imp1 _) => .imp1
  | .nop (.imm _) => .imm
  | .nop .zp => .zp
  | .nop (.zpx _) => .zpx
  | .nop (.abs _) => .abs
  | .nop .abs8 => .abs8
  | .illegal _ => .ill

/-- How many operand bytes a format has (R101). BRK's signature byte is no operand of its descriptor. DESIGN CHOICE (log 25): an
NMOS illegal slot has none whatever its `P_ILLEGAL_LEN`, since the stub fetches none (R385). -/
def Format.operandBytes : Format → Nat
  | .imp | .acc | .imp1 | .ill => 0
  | .imm | .zp | .zpx | .zpy | .izx | .izy | .izp | .rel => 1
  | .abs | .abx | .aby | .ind | .iax | .abs8 | .zpr => 2

/-- The row of an illegal opcode in the configuration, or the free values where it has none (R9, log 8). -/
def Config.illegalRow (c : Config) (op : Byte) : IllegalRow :=
  (c.illegalRows.find? (fun r => r.op == op)).getD
    { op := op, operandBytes := Config.illegalOperandBytes op, idleCycles := Config.illegalIdleCycles op }

/-- `byteLength` of the descriptor (R101, R108): `P_ILLEGAL_LEN` for an illegal opcode, which is what the stub adds to PC (R385);
it may exceed the one byte that `decode` and `encode` give the opcode (log 25). -/
def Instr.byteLength (c : Config) : Instr → Nat
  | .illegal op => 1 + (c.illegalRow op).operandBytes.val
  | i => 1 + i.format.operandBytes

/-- Base cycles of a read-class memory operand (R174, column R), the opcode fetch among them. -/
def AddrMode.readCycles : AddrMode → Nat
  | .zp => 3
  | .zpx | .zpy | .abs | .abx | .aby => 4
  | .izx => 6
  | .izy | .izp => 5

/-- Cycles of a write-class operand (R174, column W). -/
def AddrMode.writeCycles : AddrMode → Nat
  | .zp => 3
  | .zpx | .zpy | .abs => 4
  | .abx | .aby | .izp => 5
  | .izx | .izy => 6

/-- Cycles of a read-modify-write operand (R174, column M): the write-class count and two more. -/
def AddrMode.modifyCycles (m : AddrMode) : Nat :=
  m.writeCycles + 2

def ReadMode.cycles : ReadMode → Nat
  | .imm => 2
  | .mem m => m.readCycles

def RmwMode.cycles : RmwMode → Nat
  | .acc => 2
  | .mem m => m.modifyCycles

/-- The base cycle count of the descriptor (R108, R143): `fields.base_cycles` of the opcode table. -/
def Instr.baseCycles (c : Config) : Instr → Nat
  | .lda m | .ldx m | .ldy m | .adc m | .sbc m | .cmp m | .cpx m | .cpy m => m.cycles
  | .and m | .ora m | .eor m | .bit m => m.cycles
  | .sta m | .stx m | .sty m | .stz m => m.writeCycles
  | .tsb m | .trb m => m.modifyCycles
  | .inc m | .dec m | .asl m | .lsr m | .rol m | .ror m => m.cycles
  | .rmb0 | .rmb1 | .rmb2 | .rmb3 | .rmb4 | .rmb5 | .rmb6 | .rmb7 => 5
  | .smb0 | .smb1 | .smb2 | .smb3 | .smb4 | .smb5 | .smb6 | .smb7 => 5
  | .bcc | .bcs | .beq | .bne | .bmi | .bpl | .bvc | .bvs | .bra => 2
  | .bbr0 | .bbr1 | .bbr2 | .bbr3 | .bbr4 | .bbr5 | .bbr6 | .bbr7 => 5
  | .bbs0 | .bbs1 | .bbs2 | .bbs3 | .bbs4 | .bbs5 | .bbs6 | .bbs7 => 5
  | .jmp .abs => 3
  | .jmp .ind => if c.jmpIndFixed then 6 else 5
  | .jmp .iax => 6
  | .jsr | .rts | .rti => 6
  | .brk => 7
  | .tax | .tay | .txa | .tya | .tsx | .txs | .inx | .iny | .dex | .dey => 2
  | .pha | .php | .phx | .phy => 3
  | .pla | .plp | .plx | .ply => 4
  | .clc | .sec | .cli | .sei | .cld | .sed | .clv => 2
  | .nop .imp => 2
  | .nop (.imp1 _) => 1
  | .nop (.imm _) => 2
  | .nop .zp => 3
  | .nop (.zpx _) => 4
  | .nop (.abs _) => 4
  | .nop .abs8 => 8
  | .illegal op => 1 + (c.illegalRow op).idleCycles

/-- The flow class (R109, D34). -/
def Instr.flow : Instr → FlowClass
  | .jsr => .call
  | .rts | .rti => .ret
  | .bcc | .bcs | .beq | .bne | .bmi | .bpl | .bvc | .bvs | .bra => .branch
  | .bbr0 | .bbr1 | .bbr2 | .bbr3 | .bbr4 | .bbr5 | .bbr6 | .bbr7 => .branch
  | .bbs0 | .bbs1 | .bbs2 | .bbs3 | .bbs4 | .bbs5 | .bbs6 | .bbs7 => .branch
  | .jmp _ => .jump
  | .brk => .interrupt
  | _ => .none

/-- `isIllegal` (R109, R111). -/
def Instr.isIllegal : Instr → Bool
  | .illegal _ => true
  | _ => false

/-- The mnemonic of the opcode table. -/
def Instr.mnemonic : Instr → String
  | .lda _ => "LDA"
  | .ldx _ => "LDX"
  | .ldy _ => "LDY"
  | .sta _ => "STA"
  | .stx _ => "STX"
  | .sty _ => "STY"
  | .stz _ => "STZ"
  | .tax => "TAX"
  | .tay => "TAY"
  | .txa => "TXA"
  | .tya => "TYA"
  | .tsx => "TSX"
  | .txs => "TXS"
  | .adc _ => "ADC"
  | .sbc _ => "SBC"
  | .cmp _ => "CMP"
  | .cpx _ => "CPX"
  | .cpy _ => "CPY"
  | .inc _ => "INC"
  | .dec _ => "DEC"
  | .inx => "INX"
  | .iny => "INY"
  | .dex => "DEX"
  | .dey => "DEY"
  | .and _ => "AND"
  | .ora _ => "ORA"
  | .eor _ => "EOR"
  | .bit _ => "BIT"
  | .asl _ => "ASL"
  | .lsr _ => "LSR"
  | .rol _ => "ROL"
  | .ror _ => "ROR"
  | .tsb _ => "TSB"
  | .trb _ => "TRB"
  | .rmb0 => "RMB0"
  | .rmb1 => "RMB1"
  | .rmb2 => "RMB2"
  | .rmb3 => "RMB3"
  | .rmb4 => "RMB4"
  | .rmb5 => "RMB5"
  | .rmb6 => "RMB6"
  | .rmb7 => "RMB7"
  | .smb0 => "SMB0"
  | .smb1 => "SMB1"
  | .smb2 => "SMB2"
  | .smb3 => "SMB3"
  | .smb4 => "SMB4"
  | .smb5 => "SMB5"
  | .smb6 => "SMB6"
  | .smb7 => "SMB7"
  | .bcc => "BCC"
  | .bcs => "BCS"
  | .beq => "BEQ"
  | .bne => "BNE"
  | .bmi => "BMI"
  | .bpl => "BPL"
  | .bvc => "BVC"
  | .bvs => "BVS"
  | .bra => "BRA"
  | .jmp _ => "JMP"
  | .jsr => "JSR"
  | .rts => "RTS"
  | .rti => "RTI"
  | .bbr0 => "BBR0"
  | .bbr1 => "BBR1"
  | .bbr2 => "BBR2"
  | .bbr3 => "BBR3"
  | .bbr4 => "BBR4"
  | .bbr5 => "BBR5"
  | .bbr6 => "BBR6"
  | .bbr7 => "BBR7"
  | .bbs0 => "BBS0"
  | .bbs1 => "BBS1"
  | .bbs2 => "BBS2"
  | .bbs3 => "BBS3"
  | .bbs4 => "BBS4"
  | .bbs5 => "BBS5"
  | .bbs6 => "BBS6"
  | .bbs7 => "BBS7"
  | .brk => "BRK"
  | .pha => "PHA"
  | .php => "PHP"
  | .phx => "PHX"
  | .phy => "PHY"
  | .pla => "PLA"
  | .plp => "PLP"
  | .plx => "PLX"
  | .ply => "PLY"
  | .clc => "CLC"
  | .sec => "SEC"
  | .cli => "CLI"
  | .sei => "SEI"
  | .cld => "CLD"
  | .sed => "SED"
  | .clv => "CLV"
  | .nop _ => "NOP"
  | .illegal _ => "ILLEGAL"

/-- The descriptor of an instruction (R108); `isFlowControl` is true for the classes of R109 and for BRK. -/
def Instr.descriptor (c : Config) (i : Instr) : Descriptor where
  mnemonic := i.mnemonic
  format := i.format
  byteLength := i.byteLength c
  cycles := i.baseCycles c
  flow := i.flow
  isIllegal := i.isIllegal
  isFlowControl := i.flow != .none || i.isIllegal

/-- Take `n` operand bytes (at most 2) off a list of bytes. -/
def takeOperand (n : Nat) (bytes : List Byte) : Option (Operand × List Byte) :=
  match n, bytes with
  | 0, rest => some (.none, rest)
  | 1, b1 :: rest => some (.one b1, rest)
  | 2, b1 :: b2 :: rest => some (.two b1 b2, rest)
  | _, _ => none

/-- Decode the instruction at the head of a list of bytes, low address first (R100, R101). DESIGN CHOICE (log 25): an NMOS illegal
opcode takes its opcode byte alone and `rest` starts at byte 1, also where `P_ILLEGAL_LEN`, and so `Instr.byteLength` and the PC
after the stub, is 2 or 3. -/
def decode (v : Variant) (bytes : List Byte) : Except DecodeError Decoded :=
  match bytes with
  | [] => .error .noOpcode
  | op :: tail =>
    match takeOperand (decodeOpcode v op).format.operandBytes tail with
    | none => .error .truncatedOperand
    | some (operand, rest) => .ok { instr := decodeOpcode v op, operand := operand, rest := rest }

/-- The opcodes of one mnemonic by operand form, as the "Encodings" lines of the rules list them. -/
structure ModeOpcodes where
  imm : Option Byte := none
  acc : Option Byte := none
  zp  : Option Byte := none
  zpx : Option Byte := none
  zpy : Option Byte := none
  abs : Option Byte := none
  abx : Option Byte := none
  aby : Option Byte := none
  izx : Option Byte := none
  izy : Option Byte := none
  izp : Option Byte := none

def ModeOpcodes.atMem (e : ModeOpcodes) : AddrMode → Option Byte
  | .zp => e.zp
  | .zpx => e.zpx
  | .zpy => e.zpy
  | .abs => e.abs
  | .abx => e.abx
  | .aby => e.aby
  | .izx => e.izx
  | .izy => e.izy
  | .izp => e.izp

def ModeOpcodes.atRead (e : ModeOpcodes) : ReadMode → Option Byte
  | .imm => e.imm
  | .mem m => e.atMem m

def ModeOpcodes.atRmw (e : ModeOpcodes) : RmwMode → Option Byte
  | .acc => e.acc
  | .mem m => e.atMem m

/-- The opcode of an instruction, from the "Encodings" lines of the rules of 41 to 45; `none` where the mnemonic has no such
form on either variant. -/
def encodeOpcode : Instr → Option Byte
  | .lda m => ModeOpcodes.atRead
      { imm := some 0xA9, zp := some 0xA5, zpx := some 0xB5,
        abs := some 0xAD, abx := some 0xBD, aby := some 0xB9, izx := some 0xA1, izy := some 0xB1, izp := some 0xB2 } m
  | .ldx m => ModeOpcodes.atRead
      { imm := some 0xA2, zp := some 0xA6, zpy := some 0xB6,
        abs := some 0xAE, aby := some 0xBE } m
  | .ldy m => ModeOpcodes.atRead
      { imm := some 0xA0, zp := some 0xA4, zpx := some 0xB4,
        abs := some 0xAC, abx := some 0xBC } m
  | .sta m => ModeOpcodes.atMem
      { zp := some 0x85, zpx := some 0x95,
        abs := some 0x8D, abx := some 0x9D, aby := some 0x99, izx := some 0x81, izy := some 0x91, izp := some 0x92 } m
  | .stx m => ModeOpcodes.atMem { zp := some 0x86, zpy := some 0x96, abs := some 0x8E } m
  | .sty m => ModeOpcodes.atMem { zp := some 0x84, zpx := some 0x94, abs := some 0x8C } m
  | .stz m => ModeOpcodes.atMem { zp := some 0x64, zpx := some 0x74, abs := some 0x9C, abx := some 0x9E } m
  | .tax => some 0xAA
  | .tay => some 0xA8
  | .txa => some 0x8A
  | .tya => some 0x98
  | .tsx => some 0xBA
  | .txs => some 0x9A
  | .adc m => ModeOpcodes.atRead
      { imm := some 0x69, zp := some 0x65, zpx := some 0x75,
        abs := some 0x6D, abx := some 0x7D, aby := some 0x79, izx := some 0x61, izy := some 0x71, izp := some 0x72 } m
  | .sbc m => ModeOpcodes.atRead
      { imm := some 0xE9, zp := some 0xE5, zpx := some 0xF5,
        abs := some 0xED, abx := some 0xFD, aby := some 0xF9, izx := some 0xE1, izy := some 0xF1, izp := some 0xF2 } m
  | .cmp m => ModeOpcodes.atRead
      { imm := some 0xC9, zp := some 0xC5, zpx := some 0xD5,
        abs := some 0xCD, abx := some 0xDD, aby := some 0xD9, izx := some 0xC1, izy := some 0xD1, izp := some 0xD2 } m
  | .cpx m => ModeOpcodes.atRead { imm := some 0xE0, zp := some 0xE4, abs := some 0xEC } m
  | .cpy m => ModeOpcodes.atRead { imm := some 0xC0, zp := some 0xC4, abs := some 0xCC } m
  | .inc m => ModeOpcodes.atRmw { acc := some 0x1A, zp := some 0xE6, zpx := some 0xF6, abs := some 0xEE, abx := some 0xFE } m
  | .dec m => ModeOpcodes.atRmw { acc := some 0x3A, zp := some 0xC6, zpx := some 0xD6, abs := some 0xCE, abx := some 0xDE } m
  | .inx => some 0xE8
  | .iny => some 0xC8
  | .dex => some 0xCA
  | .dey => some 0x88
  | .and m => ModeOpcodes.atRead
      { imm := some 0x29, zp := some 0x25, zpx := some 0x35,
        abs := some 0x2D, abx := some 0x3D, aby := some 0x39, izx := some 0x21, izy := some 0x31, izp := some 0x32 } m
  | .ora m => ModeOpcodes.atRead
      { imm := some 0x09, zp := some 0x05, zpx := some 0x15,
        abs := some 0x0D, abx := some 0x1D, aby := some 0x19, izx := some 0x01, izy := some 0x11, izp := some 0x12 } m
  | .eor m => ModeOpcodes.atRead
      { imm := some 0x49, zp := some 0x45, zpx := some 0x55,
        abs := some 0x4D, abx := some 0x5D, aby := some 0x59, izx := some 0x41, izy := some 0x51, izp := some 0x52 } m
  | .bit m => ModeOpcodes.atRead
      { imm := some 0x89, zp := some 0x24, zpx := some 0x34,
        abs := some 0x2C, abx := some 0x3C } m
  | .asl m => ModeOpcodes.atRmw { acc := some 0x0A, zp := some 0x06, zpx := some 0x16, abs := some 0x0E, abx := some 0x1E } m
  | .lsr m => ModeOpcodes.atRmw { acc := some 0x4A, zp := some 0x46, zpx := some 0x56, abs := some 0x4E, abx := some 0x5E } m
  | .rol m => ModeOpcodes.atRmw { acc := some 0x2A, zp := some 0x26, zpx := some 0x36, abs := some 0x2E, abx := some 0x3E } m
  | .ror m => ModeOpcodes.atRmw { acc := some 0x6A, zp := some 0x66, zpx := some 0x76, abs := some 0x6E, abx := some 0x7E } m
  | .tsb m => ModeOpcodes.atMem { zp := some 0x04, abs := some 0x0C } m
  | .trb m => ModeOpcodes.atMem { zp := some 0x14, abs := some 0x1C } m
  | .rmb0 => some 0x07
  | .rmb1 => some 0x17
  | .rmb2 => some 0x27
  | .rmb3 => some 0x37
  | .rmb4 => some 0x47
  | .rmb5 => some 0x57
  | .rmb6 => some 0x67
  | .rmb7 => some 0x77
  | .smb0 => some 0x87
  | .smb1 => some 0x97
  | .smb2 => some 0xA7
  | .smb3 => some 0xB7
  | .smb4 => some 0xC7
  | .smb5 => some 0xD7
  | .smb6 => some 0xE7
  | .smb7 => some 0xF7
  | .bcc => some 0x90
  | .bcs => some 0xB0
  | .beq => some 0xF0
  | .bne => some 0xD0
  | .bmi => some 0x30
  | .bpl => some 0x10
  | .bvc => some 0x50
  | .bvs => some 0x70
  | .bra => some 0x80
  | .jmp .abs => some 0x4C
  | .jmp .ind => some 0x6C
  | .jmp .iax => some 0x7C
  | .jsr => some 0x20
  | .rts => some 0x60
  | .rti => some 0x40
  | .bbr0 => some 0x0F
  | .bbr1 => some 0x1F
  | .bbr2 => some 0x2F
  | .bbr3 => some 0x3F
  | .bbr4 => some 0x4F
  | .bbr5 => some 0x5F
  | .bbr6 => some 0x6F
  | .bbr7 => some 0x7F
  | .bbs0 => some 0x8F
  | .bbs1 => some 0x9F
  | .bbs2 => some 0xAF
  | .bbs3 => some 0xBF
  | .bbs4 => some 0xCF
  | .bbs5 => some 0xDF
  | .bbs6 => some 0xEF
  | .bbs7 => some 0xFF
  | .brk => some 0x00
  | .pha => some 0x48
  | .php => some 0x08
  | .phx => some 0xDA
  | .phy => some 0x5A
  | .pla => some 0x68
  | .plp => some 0x28
  | .plx => some 0xFA
  | .ply => some 0x7A
  | .clc => some 0x18
  | .sec => some 0x38
  | .cli => some 0x58
  | .sei => some 0x78
  | .cld => some 0xD8
  | .sed => some 0xF8
  | .clv => some 0xB8
  | .nop .imp => some 0xEA
  | .nop (.imp1 op) => some op
  | .nop (.imm op) => some op
  | .nop .zp => some 0x44
  | .nop (.zpx op) => some op
  | .nop (.abs op) => some op
  | .nop .abs8 => some 0x5C
  | .illegal op => some op

/-- The operand bytes in memory order (R101, R104: byte 1 is the low byte). -/
def Operand.bytes : Operand → List Byte
  | .none => []
  | .one b1 => [b1]
  | .two b1 b2 => [b1, b2]

/-- The operand has as many bytes as the instruction's format. -/
def Operand.fits (o : Operand) (i : Instr) : Bool :=
  o.bytes.length == i.format.operandBytes

/-- The bytes of an instruction with its operand; of an NMOS illegal slot the opcode byte alone (DESIGN CHOICE, log 25). -/
def encode (i : Instr) (o : Operand) : Option (List Byte) :=
  (encodeOpcode i).map (fun op => op :: o.bytes)

/-- The three bytes, lowest address first, of an instruction whose bits are numbered as the opcode table numbers them; bits from
`nbits` up are zero. -/
def tableBytes (nbits w : Nat) : List Byte :=
  let v := w % 2 ^ nbits
  [BitVec.ofNat 8 v, BitVec.ofNat 8 (v / 2 ^ 8), BitVec.ofNat 8 (v / 2 ^ 16)]

/-- The instruction the decoder reads from an instruction of the table, on the variant of `State.reset` (log 2, log 14). -/
def decodeTableWord (nbits w : Nat) : Option Instr :=
  match decode .cmos65c02 (tableBytes nbits w) with
  | .ok d => some d.instr
  | .error _ => none

end Sys2Proof
end

