-- ==== Sys2Proof/Machine/State.lean ====
section
/-! DEFINITION. The machine's state: everything 10_state.md gives the core (R30, R54, R55), the event history of R83 and R471,
the RAM part of the bus, and the read-only configuration (R10). -/

namespace Sys2Proof.Machine

/-- The six flags (R37). B and E are no state: they are synthesized when the status byte is pushed (R39). -/
structure Flags where
  n : Bool
  v : Bool
  d : Bool
  i : Bool
  z : Bool
  c : Bool
  deriving DecidableEq, Repr

/-- The per-instruction latches (R54, R16). No rule reads one that an earlier instruction wrote. -/
structure Latches where
  adl  : Byte
  adh  : Byte
  bal  : Byte
  bah  : Byte
  ial  : Byte
  iah  : Byte
  off  : Byte
  data : Byte
  ea   : Word
  deriving DecidableEq, Repr

/-- The state of the machine. -/
structure State where
  /-- the program counter (R35): the address of the next byte to fetch -/
  pc          : Word
  /-- the stack pointer (R34): the stack byte is at `0x0100 + sp` -/
  sp          : Byte
  /-- the accumulator (R31) -/
  a           : Byte
  /-- index register X (R32) -/
  x           : Byte
  /-- index register Y (R33) -/
  y           : Byte
  /-- the flags (R37) -/
  flags       : Flags
  /-- the cycle offset within the current instruction; 0 at an instruction boundary (R49) -/
  t           : Nat
  /-- the opcode of the instruction in flight (R50) -/
  opcode      : Byte
  /-- the total cycle counter (R51) -/
  cycles      : Nat
  /-- a pending NMI request (R52) -/
  pendingNMI  : Bool
  /-- a pending IRQ request (R53) -/
  pendingIRQ  : Bool
  /-- the per-instruction latches (R54) -/
  lat         : Latches
  /-- the sticky mark of the illegal-opcode stub (R55) -/
  illegalSeen : Bool
  /-- every bus access and hook event, newest first (R83, R471; log 13) -/
  history     : List BusEvent
  /-- the bytes the RAM part of the bus holds, in the canonical form of `Memory.wf` (R72; log 6) -/
  mem         : List Host.Cell
  /-- the configuration; no step writes it (R10; log 1) -/
  cfg         : Config
  deriving DecidableEq, Repr

/-- Why the machine stops with a fault: never. No instruction, operand, address or bus answer traps (R400), so the type has no
constructor, and every step from a boundary answers a next state. -/
inductive Fault where
  deriving DecidableEq, Repr

/-- Why the machine gives no meaning. -/
inductive Refusal where
  /-- Raised by an arm of `exec` whose instruction has no meaning yet; safe. No arm raises it now. -/
  | notModelled (mnemonic : String)
  /-- Raised by `step`, `hostReset`, `getState` and `setState` on a state or snapshot whose `t` is not 0: an instruction in
  flight, which the spec's host actions never see and a snapshot cannot restore (R58, R450, R462, R470); safe. -/
  | midInstruction
  deriving DecidableEq, Repr

/-- All flags clear: the model's choice at reset, where the spec gives each a free draw (R451; log 3). -/
def Flags.zero : Flags where
  n := false
  v := false
  d := false
  i := false
  z := false
  c := false

/-- All latches zero; irrelevant at a boundary (R54; log 4). -/
def Latches.zero : Latches where
  adl := 0
  adh := 0
  bal := 0
  bah := 0
  ial := 0
  iah := 0
  off := 0
  data := 0
  ea := 0

/-- A core just constructed (R455): `cycles` 0, no latch set, nothing accessed yet; the registers the spec leaves free are zero
(log 3), and so is PC, for which the spec gives no value before the first reset (DESIGN CHOICE, log 22). -/
def State.constructed (c : Config) : State where
  pc := 0
  sp := 0
  a := 0
  x := 0
  y := 0
  flags := Flags.zero
  t := 0
  opcode := 0
  cycles := 0
  pendingNMI := false
  pendingIRQ := false
  lat := Latches.zero
  illegalSeen := false
  history := []
  mem := []
  cfg := c

/-- The machine right after reset (R59, R450): the reset vector has been read at 0xFFFC and 0xFFFD, two cycles, and its bytes
were both 0x00, what RAM with nothing listed holds (log 6); the variant is CMOS65C02 (log 2). It is `hostReset` of a
constructed core (`Laws.reset_eq_hostReset`). -/
def State.reset : State :=
  { State.constructed (Config.default .cmos65c02) with
    pc := 0x0000
    cycles := 2
    history := [.read 0xFFFD 1, .read 0xFFFC 0] }

end Sys2Proof.Machine
end

