-- ==== Sys2Proof/Machine/Memory.lean ====
section
/-! DEFINITION. The bytes of the RAM part of the bus: a list of (address, byte) cells in one canonical form, addresses strictly
rising and no cell equal to what an unlisted address reads as. -/

namespace Sys2Proof.Machine

/-- What an address that memory does not list reads as (DESIGN CHOICE, log 6). -/
def Memory.unlisted : Byte := 0x00

/-- The byte memory holds at an address. -/
def Memory.get : List Host.Cell → Nat → Byte
  | [], _ => Memory.unlisted
  | (k, v) :: rest, a => if a < k then Memory.unlisted else if a = k then v else Memory.get rest a

/-- Put a cell at the head of a list of higher addresses, unless it says what an unlisted address says. -/
def Memory.putHead (a : Nat) (v : Byte) (rest : List Host.Cell) : List Host.Cell :=
  if v = Memory.unlisted then rest else (a, v) :: rest

/-- Memory with one byte written, in canonical form again. -/
def Memory.set : List Host.Cell → Nat → Byte → List Host.Cell
  | [], a, v => Memory.putHead a v []
  | (k, w) :: rest, a, v =>
    if a < k then Memory.putHead a v ((k, w) :: rest)
    else if a = k then Memory.putHead a v rest
    else (k, w) :: Memory.set rest a v

/-- Every address of the list is at least `lo`, they rise strictly, lie in the address space, and no cell says what an
unlisted address says. -/
def Memory.wfFrom (lo : Nat) : List Host.Cell → Bool
  | [] => true
  | (k, v) :: rest => decide (lo ≤ k) && decide (k < 65536) && decide (v ≠ Memory.unlisted) && Memory.wfFrom (k + 1) rest

/-- The canonical form of memory. -/
def Memory.wf (m : List Host.Cell) : Bool :=
  Memory.wfFrom 0 m

end Sys2Proof.Machine
end

