-- ==== Sys2Proof/Machine/Ops.lean ====
section
/-! DEFINITION. The named operations over the state: bus cycles, fetches, latches, stack, the status byte, hooks, taking an
interrupt, BRK's shared tail and the return from one. Every operation is a function from state to state that performs its bus
accesses in the order of the cycle tables. -/

namespace Sys2Proof.Machine

/-! ## Bytes and words (R11, R12, R75, R104) -/

/-- `hi:lo`, the word `hi * 256 + lo` (R11). -/
def word (hi lo : Byte) : Word := hi ++ lo

/-- `v[15:8]` -/
def hiByte (v : Word) : Byte := v.extractLsb' 8 8

/-- `v[7:0]` -/
def loByte (v : Word) : Byte := v.extractLsb' 0 8

/-- The zero-page address of a byte (R103). -/
def zeroPage (b : Byte) : Word := word 0x00 b

/-- The stack address of a stack pointer (R34, R79). -/
def stackAddr (sp : Byte) : Word := word 0x01 sp

/-- `sext_16` (R12). -/
def sext16 (b : Byte) : Word := b.signExtend 16

/-- `zext_16` (R12). -/
def zext16 (b : Byte) : Word := b.setWidth 16

/-- The index addition carries into the high byte: `S >= 256` (R159, R166). -/
def carries (base index : Byte) : Bool := decide (256 ≤ base.toNat + index.toNat)

/-! ## Bus cycles (R14, R71, R72, R89, R142) -/

/-- The bus answers this address as RAM (R72's special case). -/
def State.isRam (s : State) (addr : Word) : Bool :=
  s.cfg.ram.any (fun r => decide (r.first ≤ addr.toNat) && decide (addr.toNat ≤ r.last))

/-- The byte the bus answers to a read made now (R71): the RAM part's byte, or the oracle's. -/
def busAnswer (addr : Word) (s : State) : Byte :=
  if s.isRam addr then Memory.get s.mem addr.toNat else Config.busRead s.history addr s.cycles

/-- One read cycle: the access is recorded with the cycle count before its increment, and the counters advance. -/
def readCycle (addr : Word) (s : State) : State :=
  { s with history := .read addr s.cycles :: s.history, cycles := s.cycles + 1, t := s.t + 1 }

/-- One write cycle. The RAM part keeps the byte; any other address leaves memory alone. -/
def writeCycle (addr : Word) (v : Byte) (s : State) : State :=
  { s with
    mem := if s.isRam addr then Memory.set s.mem addr.toNat v else s.mem
    history := .write addr v s.cycles :: s.history
    cycles := s.cycles + 1
    t := s.t + 1 }

/-- A read cycle whose byte goes where `put` says. -/
def readTo (put : Byte → State → State) (addr : Word) (s : State) : State :=
  put (busAnswer addr s) (readCycle addr s)

/-- `Dummy(addr)` (R14): a read whose byte is discarded. -/
def dummyRead (addr : Word) (s : State) : State :=
  readCycle addr s

/-- `fetch()` (R15): read at PC, then PC <- PC + 1; the byte goes where `put` says. -/
def fetchTo (put : Byte → State → State) (s : State) : State :=
  put (busAnswer s.pc s) { readCycle s.pc s with pc := s.pc + 1 }

/-! ## Latches and registers as destinations -/

def setADL (b : Byte) (s : State) : State := { s with lat := { s.lat with adl := b } }
def setADH (b : Byte) (s : State) : State := { s with lat := { s.lat with adh := b } }
def setBAL (b : Byte) (s : State) : State := { s with lat := { s.lat with bal := b } }
def setBAH (b : Byte) (s : State) : State := { s with lat := { s.lat with bah := b } }
def setIAL (b : Byte) (s : State) : State := { s with lat := { s.lat with ial := b } }
def setIAH (b : Byte) (s : State) : State := { s with lat := { s.lat with iah := b } }
def setOFF (b : Byte) (s : State) : State := { s with lat := { s.lat with off := b } }
def setDATA (b : Byte) (s : State) : State := { s with lat := { s.lat with data := b } }
def setEA (w : Word) (s : State) : State := { s with lat := { s.lat with ea := w } }
def setOpcode (b : Byte) (s : State) : State := { s with opcode := b }
def setA (b : Byte) (s : State) : State := { s with a := b }
def setX (b : Byte) (s : State) : State := { s with x := b }
def setY (b : Byte) (s : State) : State := { s with y := b }
def setSP (b : Byte) (s : State) : State := { s with sp := b }
def setPC (w : Word) (s : State) : State := { s with pc := w }

/-- The word in the address latches, `ADH:ADL`. -/
def State.ad (s : State) : Word := word s.lat.adh s.lat.adl

/-- The word in the base latches, `BAH:BAL`. -/
def State.ba (s : State) : Word := word s.lat.bah s.lat.bal

/-- The word in the indirect latches, `IAH:IAL`. -/
def State.ia (s : State) : Word := word s.lat.iah s.lat.ial

/-! ## Status byte (R38 to R40) -/

/-- The bit `k` of a byte set to a flag. -/
def flagBit (k : Nat) (b : Bool) : Byte := if b then BitVec.twoPow 8 k else 0

/-- `P` (R39): the six flags at their places, bits 5 and 4 zero. -/
def statusByte (f : Flags) : Byte :=
  flagBit 7 f.n ||| flagBit 6 f.v ||| flagBit 3 f.d ||| flagBit 2 f.i ||| flagBit 1 f.z ||| flagBit 0 f.c

/-- `PushP(b) = P | 0x20 | (b << 4)` (R39). -/
def pushedStatus (b : Bool) (f : Flags) : Byte :=
  statusByte f ||| 0x20 ||| flagBit 4 b

/-- `setStatusBits(v)` (R40): bits 5 and 4 are discarded. -/
def statusFlags (v : Byte) : Flags where
  n := v.getLsbD 7
  v := v.getLsbD 6
  d := v.getLsbD 3
  i := v.getLsbD 2
  z := v.getLsbD 1
  c := v.getLsbD 0

def setStatusBits (v : Byte) (s : State) : State := { s with flags := statusFlags v }

/-! ## Stack (R15, R34) -/

/-- `push(v)`: write at the stack pointer, then decrement it mod 256. -/
def push (v : Byte) (s : State) : State :=
  let s' := writeCycle (stackAddr s.sp) v s
  { s' with sp := s.sp - 1 }

/-- `pull()`: increment the stack pointer mod 256, then read there; the byte goes where `put` says. -/
def pullTo (put : Byte → State → State) (s : State) : State :=
  let s' := { s with sp := s.sp + 1 }
  readTo put (stackAddr s'.sp) s'

/-! ## Hooks, the illegal mark, the end of an instruction -/

/-- `emit(h)` (R15, R423): a hook event in the output trace. -/
def emit (h : Hook) (s : State) : State := { s with history := .hook h :: s.history }

/-- `mark_illegal` (R15, R55). -/
def markIllegal (s : State) : State := { s with illegalSeen := true }

/-- One idle cycle of the illegal-opcode stub: no bus access (R142, R385). -/
def idleCycles (k : Nat) (s : State) : State := { s with cycles := s.cycles + k, t := s.t + k }

/-- The state at the boundary that ends an instruction or an interrupt sequence: T returns to 0 (R49). -/
def endInstr (s : State) : State := { s with t := 0 }

/-- The answer of an instruction's meaning: the boundary after its last cycle. -/
def finish (s : State) : Host.Outcome State Fault Refusal := .next (endInstr s)

/-! ## Taking an interrupt, BRK's tail, and the return (R330, R407 to R412, R325) -/

/-- The vectors (R80). -/
def nmiVector : Word := 0xFFFA
def resetVector : Word := 0xFFFC
def irqVector : Word := 0xFFFE

/-- PC from a vector: two reads, low byte first (R80, R411). -/
def loadVector (vec : Word) (s : State) : State :=
  let s := readTo setADL vec s
  let s := readTo setADH (vec + 1) s
  setPC s.ad s

/-- The shared tail of BRK and the interrupt sequences (R330 c3 to c7, R407 c3 to c7): push PC high, PC low and the status byte
with B as given; then I <- 1, and D <- 0 where `clearsD`; then PC from the vector. -/
def enterHandler (pushedB clearsD : Bool) (vec : Word) (s : State) : State :=
  let s := push (hiByte s.pc) s
  let s := push (loByte s.pc) s
  let s := push (pushedStatus pushedB s.flags) s
  let s := { s with flags := { s.flags with i := true, d := s.flags.d && !clearsD } }
  loadVector vec s

/-- The two interrupt inputs (R401). -/
inductive Interrupt where
  | nmi
  | irq
  deriving DecidableEq, Repr

/-- The vector of an interrupt (R407). -/
def interruptVector : Interrupt → Word
  | .nmi => nmiVector
  | .irq => irqVector

/-- The latch of the interrupt taken is cleared, the other one is untouched (R412). -/
def clearLatch (k : Interrupt) (s : State) : State :=
  match k with
  | .nmi => { s with pendingNMI := false }
  | .irq => { s with pendingIRQ := false }

/-- NMI and IRQ entry clear D on the 65C02, and on the NMOS core only where the parameter says so (R410). -/
def interruptClearsD (c : Config) : Bool :=
  match c.variant with
  | .cmos65c02 => true
  | .nmos6502 => c.nmosHwIntClearsD

/-- The interrupt sequence (R407): 7 cycles in place of an instruction. c1 reads the opcode at PC and discards it into
`opcode`, c2 reads there again; PC is not incremented. -/
def takeInterrupt (k : Interrupt) (s : State) : State :=
  let s := clearLatch k (readTo setOpcode s.pc s)
  let s := dummyRead s.pc s
  endInstr (enterHandler s.cfg.hwIntPushedB (interruptClearsD s.cfg) (interruptVector k) s)

/-- RTI after its opcode fetch (R325, R415): two dummy reads, the status byte, PC low and PC high pulled, no + 1; then the
`return` hook. -/
def returnFromInterrupt (s : State) : State :=
  let s := dummyRead s.pc s
  let s := dummyRead (stackAddr s.sp) s
  let s := pullTo setStatusBits s
  let s := pullTo setADL s
  let s := pullTo setADH s
  emit .ret (setPC s.ad s)

/-! ## The boundary step (R140, R141) -/

/-- c1 of every instruction: `opcode <- fetch()` (R141). -/
def fetchOpcode (s : State) : State :=
  fetchTo setOpcode s

/-- What the boundary step takes in place of an instruction, if anything: NMI first, then IRQ where I is clear (R140, R405,
R406). -/
def pendingInterrupt (s : State) : Option Interrupt :=
  if s.pendingNMI then some .nmi
  else if s.pendingIRQ && !s.flags.i then some .irq
  else none

end Sys2Proof.Machine
end

