-- ==== Sys2Proof/Machine/Flags.lean ====
section
/-! DEFINITION. The flag rules: `SetNZ`, and the arithmetic cores of 42_arithmetic.md as functions of bytes and a carry. -/

namespace Sys2Proof.Machine

/-- `SetNZ(v)` (R15). -/
def Flags.withNZ (f : Flags) (v : Byte) : Flags :=
  { f with n := v.getLsbD 7, z := v == 0 }

def setNZ (v : Byte) (s : State) : State := { s with flags := s.flags.withNZ v }

/-- `SetNZ(v)` with C <- c: shifts and rotates (R274 to R277). -/
def setNZC (v : Byte) (c : Bool) (s : State) : State :=
  { s with flags := { s.flags.withNZ v with c := c } }

/-- C as a number. -/
def carryIn (c : Bool) : Nat := if c then 1 else 0

/-- `s8` (R12): the signed value of a byte. -/
def s8 (b : Byte) : Int := b.toInt

/-- The low nibble as a number, `x & 0x0F`. -/
def lowNibble (b : Byte) : Int := (b &&& 0x0F).toNat

/-- The high nibble in place, `x & 0xF0`. -/
def highPart (b : Byte) : Byte := b &&& 0xF0

/-- The result of an arithmetic core: the byte and the four flags. -/
structure Arith where
  r : Byte
  n : Bool
  v : Bool
  z : Bool
  c : Bool
  deriving DecidableEq, Repr

/-- ADC binary core (R230). -/
def adcBinary (a m : Byte) (c : Bool) : Arith :=
  let sum := a.toNat + m.toNat + carryIn c
  let r := BitVec.ofNat 8 sum
  { r := r
    n := r.getLsbD 7
    v := ((a ^^^ r) &&& (m ^^^ r) &&& 0x80) != 0
    z := r == 0
    c := decide (256 ≤ sum) }

/-- ADC decimal core of the NMOS part (R231, C1): Z from the binary sum, N and V from the sum before the high-nibble
adjustment. -/
def adcDecimalNmos (a m : Byte) (c : Bool) : Arith :=
  let al0 : Int := lowNibble a + lowNibble m + carryIn c
  let al : Int := if 0x0A ≤ al0 then (al0 + 0x06) % 16 + 0x10 else al0
  let sum0 : Int := (highPart a).toNat + (highPart m).toNat + al
  let t2 : Int := s8 (highPart a) + s8 (highPart m) + al
  let sum : Int := if 0xA0 ≤ sum0 then sum0 + 0x60 else sum0
  { r := BitVec.ofInt 8 sum
    n := (BitVec.ofInt 8 sum0).getLsbD 7
    v := decide (t2 < -128) || decide (127 < t2)
    z := BitVec.ofNat 8 (a.toNat + m.toNat + carryIn c) == 0
    c := decide (0x100 ≤ sum) }

/-- ADC decimal core of the 65C02 (R232): N and Z from the adjusted result. -/
def adcDecimalCmos (a m : Byte) (c : Bool) : Arith :=
  let q := adcDecimalNmos a m c
  { q with n := q.r.getLsbD 7, z := q.r == 0 }

/-- ADC's core by D and the variant (R233). -/
def adcCore (v : Variant) (d : Bool) (a m : Byte) (c : Bool) : Arith :=
  if d then
    match v with
    | .nmos6502 => adcDecimalNmos a m c
    | .cmos65c02 => adcDecimalCmos a m c
  else adcBinary a m c

/-- SBC binary core (R234). -/
def sbcBinary (a m : Byte) (c : Bool) : Arith :=
  let diff : Int := (a.toNat : Int) - m.toNat - (1 - carryIn c)
  let r := BitVec.ofInt 8 diff
  { r := r
    n := r.getLsbD 7
    v := ((a ^^^ m) &&& (a ^^^ r) &&& 0x80) != 0
    z := r == 0
    c := decide (0 ≤ diff) }

/-- SBC decimal core of the NMOS part (R235): the byte from the nibble sequence, all flags from the binary core. -/
def sbcDecimalNmos (a m : Byte) (c : Bool) : Arith :=
  let al0 : Int := lowNibble a - lowNibble m + carryIn c - 1
  let al : Int := if al0 < 0 then (al0 - 0x06) % 16 - 0x10 else al0
  let sum0 : Int := ((highPart a).toNat : Int) - (highPart m).toNat + al
  let sum : Int := if sum0 < 0 then sum0 - 0x60 else sum0
  { sbcBinary a m c with r := BitVec.ofInt 8 sum }

/-- SBC decimal core of the 65C02 (R236): V and C from the binary core, N and Z from the adjusted result. -/
def sbcDecimalCmos (a m : Byte) (c : Bool) : Arith :=
  let al : Int := lowNibble a - lowNibble m + carryIn c - 1
  let sum0 : Int := (a.toNat : Int) - m.toNat + carryIn c - 1
  let sum1 : Int := if sum0 < 0 then sum0 - 0x60 else sum0
  let sum : Int := if al < 0 then sum1 - 0x06 else sum1
  let r := BitVec.ofInt 8 sum
  { sbcBinary a m c with r := r, n := r.getLsbD 7, z := r == 0 }

/-- SBC's core by D and the variant (R237). -/
def sbcCore (v : Variant) (d : Bool) (a m : Byte) (c : Bool) : Arith :=
  if d then
    match v with
    | .nmos6502 => sbcDecimalNmos a m c
    | .cmos65c02 => sbcDecimalCmos a m c
  else sbcBinary a m c

/-- The result of ADC or SBC into A, N, V, Z and C (R233, R237). -/
def applyArith (q : Arith) (s : State) : State :=
  { s with a := q.r, flags := { s.flags with n := q.n, v := q.v, z := q.z, c := q.c } }

/-- The compare core (R238): N, Z and C from the difference; V unchanged. -/
def compareFlags (r m : Byte) (f : Flags) : Flags :=
  let t : Int := (r.toNat : Int) - m.toNat
  { f with n := (BitVec.ofInt 8 t).getLsbD 7, z := decide (t = 0), c := decide (0 ≤ t) }

def compare (r m : Byte) (s : State) : State := { s with flags := compareFlags r m s.flags }

/-! ## The byte functions of the shifts and rotates (R274 to R277) -/

def aslByte (m : Byte) : Byte := m <<< 1
def lsrByte (m : Byte) : Byte := m >>> 1
def rolByte (c : Bool) (m : Byte) : Byte := (m <<< 1) ||| flagBit 0 c
def rorByte (c : Bool) (m : Byte) : Byte := (m >>> 1) ||| flagBit 7 c

end Sys2Proof.Machine
end

