-- ==== Sys2Proof/Machine/Operands.lean ====
section
/-! DEFINITION. The addressing modes of 40_sequencer.md: for each the cycles that form the effective address, and the three
operand primitives of R145 over them. Each function starts after the opcode fetch (c1). -/

namespace Sys2Proof.Machine

/-- `zp` (R149): the effective address is the operand byte in page 0. -/
def addrZp (s : State) : State :=
  let s := fetchTo setADL s
  setEA (zeroPage s.lat.adl) s

/-- `zp,X` and `zp,Y` (R152, R153): a dummy read of the base while the index is added, mod 256 within page 0. -/
def addrZpIndexed (index : Byte) (s : State) : State :=
  let s := fetchTo setBAL s
  let s := dummyRead (zeroPage s.lat.bal) s
  setEA (zeroPage (s.lat.bal + index)) s

/-- `abs` (R156). -/
def addrAbs (s : State) : State :=
  let s := fetchTo setADL s
  let s := fetchTo setADH s
  setEA s.ad s

/-- The unfixed address `UA = BAH : (S mod 256)` of the base in BAH:BAL (R159, R166). -/
def unfixedAddr (index : Byte) (s : State) : Word :=
  word s.lat.bah (s.lat.bal + index)

/-- Index the base in BAH:BAL (R159 to R162, R166 to R168): the effective address is the 16-bit sum, and the unfixed address is
read as a dummy where the addition carries into the high byte, or in any case where `always` (a write or read-modify-write). -/
def indexBase (always : Bool) (index : Byte) (s : State) : State :=
  let s' := setEA (s.ba + zext16 index) s
  if always || carries s.lat.bal index then dummyRead (unfixedAddr index s) s' else s'

/-- `abs,X` and `abs,Y` (R159 to R162). -/
def addrAbsIndexed (always : Bool) (index : Byte) (s : State) : State :=
  let s := fetchTo setBAL s
  let s := fetchTo setBAH s
  indexBase always index s

/-- `(zp,X)` (R163, R164): the pointer is at `BAL + X` in page 0 and wraps there. -/
def addrIzx (s : State) : State :=
  let s := fetchTo setBAL s
  let s := dummyRead (zeroPage s.lat.bal) s
  let s := readTo setADL (zeroPage (s.lat.bal + s.x)) s
  let s := readTo setADH (zeroPage (s.lat.bal + s.x + 1)) s
  setEA s.ad s

/-- `(zp),Y` (R166 to R168): the base is the pointer's word, read within page 0, and Y is added to it. -/
def addrIzy (always : Bool) (s : State) : State :=
  let s := fetchTo setIAL s
  let s := readTo setBAL (zeroPage s.lat.ial) s
  let s := readTo setBAH (zeroPage (s.lat.ial + 1)) s
  indexBase always s.y s

/-- `(zp)` of the 65C02 (R169, R170). -/
def addrIzp (s : State) : State :=
  let s := fetchTo setIAL s
  let s := readTo setADL (zeroPage s.lat.ial) s
  let s := readTo setADH (zeroPage (s.lat.ial + 1)) s
  setEA s.ad s

/-- The cycles of a mode up to its effective address, left in the latch EA. `always` is false for a read-class access, whose
dummy read of the unfixed address is made only on a carry, and true for write and read-modify-write accesses. -/
def address (always : Bool) (m : AddrMode) (s : State) : State :=
  match m with
  | .zp => addrZp s
  | .zpx => addrZpIndexed s.x s
  | .zpy => addrZpIndexed s.y s
  | .abs => addrAbs s
  | .abx => addrAbsIndexed always s.x s
  | .aby => addrAbsIndexed always s.y s
  | .izx => addrIzx s
  | .izy => addrIzy always s
  | .izp => addrIzp s

/-- `LoadOperand(mode)` (R145, class R): the operand byte is left in the latch DATA. -/
def loadOperand (m : ReadMode) (s : State) : State :=
  match m with
  | .imm => fetchTo setDATA s
  | .mem m =>
    let s := address false m s
    readTo setDATA s.lat.ea s

/-- `StoreOperand(mode, v)` (R145, class W). -/
def storeOperand (m : AddrMode) (v : Byte) (s : State) : State :=
  let s := address true m s
  writeCycle s.lat.ea v s

/-- `ModifyOperand(mode, f)` (R145, class M): read, write the unmodified value back, write `f` of it (R151). The old value is
left in the latch DATA. -/
def modifyOperand (m : AddrMode) (f : Byte → Byte) (s : State) : State :=
  let s := address true m s
  let s := readTo setDATA s.lat.ea s
  let s := writeCycle s.lat.ea s.lat.data s
  writeCycle s.lat.ea (f s.lat.data) s

/-- The implied and accumulator tables after c1 (R146, R147): a dummy read of PC. -/
def implied (s : State) : State :=
  dummyRead s.pc s

/-- Two bytes into IAL, IAH (R321). -/
def fetchIndirect (s : State) : State :=
  fetchTo setIAH (fetchTo setIAL s)

/-- Two bytes into BAL, BAH (R322). -/
def fetchBase (s : State) : State :=
  fetchTo setBAH (fetchTo setBAL s)

end Sys2Proof.Machine
end

