-- ==== Sys2Proof/Machine/Arithmetic.lean ====
section
/-! DEFINITION. The meanings of 42_arithmetic.md: ADC, SBC, the compares, increments and decrements. -/

namespace Sys2Proof.Machine

/-- A byte function on a register, N and Z from the result (R243, R245 to R249). -/
def stepRegister (put : Byte → State → State) (v : Byte) (s : State) : Host.Outcome State Fault Refusal :=
  finish (setNZ v (put v (implied s)))

/-- A byte function on memory or the accumulator, N and Z from the result (R242 to R245). -/
def stepOperand (f : Byte → Byte) (m : RmwMode) (s : State) : Host.Outcome State Fault Refusal :=
  match m with
  | .acc => stepRegister setA (f s.a) s
  | .mem m =>
    let s := modifyOperand m f s
    finish (setNZ (f s.lat.data) s)

/-- ADC (R233). -/
def execAdc (m : ReadMode) (s : State) : Host.Outcome State Fault Refusal :=
  let s := loadOperand m s
  finish (applyArith (adcCore s.cfg.variant s.flags.d s.a s.lat.data s.flags.c) s)

/-- SBC (R237). -/
def execSbc (m : ReadMode) (s : State) : Host.Outcome State Fault Refusal :=
  let s := loadOperand m s
  finish (applyArith (sbcCore s.cfg.variant s.flags.d s.a s.lat.data s.flags.c) s)

/-- CMP (R239). -/
def execCmp (m : ReadMode) (s : State) : Host.Outcome State Fault Refusal :=
  let s := loadOperand m s
  finish (compare s.a s.lat.data s)

/-- CPX (R240). -/
def execCpx (m : ReadMode) (s : State) : Host.Outcome State Fault Refusal :=
  let s := loadOperand m s
  finish (compare s.x s.lat.data s)

/-- CPY (R241). -/
def execCpy (m : ReadMode) (s : State) : Host.Outcome State Fault Refusal :=
  let s := loadOperand m s
  finish (compare s.y s.lat.data s)

/-- INC (R242) and INC A (R243). -/
def execInc (m : RmwMode) (s : State) : Host.Outcome State Fault Refusal := stepOperand (· + 1) m s

/-- DEC (R244) and DEC A (R245). -/
def execDec (m : RmwMode) (s : State) : Host.Outcome State Fault Refusal := stepOperand (· - 1) m s

/-- INX (R246). -/
def execInx (s : State) : Host.Outcome State Fault Refusal := stepRegister setX (s.x + 1) s

/-- INY (R247). -/
def execIny (s : State) : Host.Outcome State Fault Refusal := stepRegister setY (s.y + 1) s

/-- DEX (R248). -/
def execDex (s : State) : Host.Outcome State Fault Refusal := stepRegister setX (s.x - 1) s

/-- DEY (R249). -/
def execDey (s : State) : Host.Outcome State Fault Refusal := stepRegister setY (s.y - 1) s

end Sys2Proof.Machine
end

