-- ==== Sys2Proof/Machine/Control.lean ====
section
/-! DEFINITION. The meanings of 44_control.md: branches, jumps, subroutines, the bit branches and BRK. -/

namespace Sys2Proof.Machine

/-- The branch target `PC_next + sext_16(OFF)` (R105), where PC is PC_next. -/
def State.branchTarget (s : State) : Word :=
  s.pc + sext16 s.lat.off

/-- A taken branch after its offset fetch (R172 c3 and c4): a dummy read at PC_next, and one more at the target's low byte in
PC_next's page where the page differs; PC <- TGT. -/
def takeBranch (s : State) : State :=
  let target := s.branchTarget
  let next := s.pc
  let s := dummyRead next s
  if hiByte target == hiByte next then setPC target s
  else setPC target (dummyRead (word (hiByte next) (loByte target)) s)

/-- The REL table (R172, R310) with its condition. -/
def branchIf (cond : Bool) (s : State) : Host.Outcome State Fault Refusal :=
  let s := fetchTo setOFF s
  finish (if cond then takeBranch s else s)

/-- The ZPR table (R173): the byte tested, read twice, then the offset; taken where bit `n` of the byte is `value` (R326,
R327). -/
def branchOnBit (n : Nat) (value : Bool) (s : State) : Host.Outcome State Fault Refusal :=
  let s := fetchTo setADL s
  let s := readTo setDATA (zeroPage s.lat.adl) s
  let s := dummyRead (zeroPage s.lat.adl) s
  let s := fetchTo setOFF s
  finish (if s.lat.data.getLsbD n == value then takeBranch s else s)

/-- BCC (R311). -/
def execBcc (s : State) : Host.Outcome State Fault Refusal := branchIf (!s.flags.c) s

/-- BCS (R312). -/
def execBcs (s : State) : Host.Outcome State Fault Refusal := branchIf s.flags.c s

/-- BEQ (R313). -/
def execBeq (s : State) : Host.Outcome State Fault Refusal := branchIf s.flags.z s

/-- BNE (R314). -/
def execBne (s : State) : Host.Outcome State Fault Refusal := branchIf (!s.flags.z) s

/-- BMI (R315). -/
def execBmi (s : State) : Host.Outcome State Fault Refusal := branchIf s.flags.n s

/-- BPL (R316). -/
def execBpl (s : State) : Host.Outcome State Fault Refusal := branchIf (!s.flags.n) s

/-- BVC (R317). -/
def execBvc (s : State) : Host.Outcome State Fault Refusal := branchIf (!s.flags.v) s

/-- BVS (R318). -/
def execBvs (s : State) : Host.Outcome State Fault Refusal := branchIf s.flags.v s

/-- BRA (R319). -/
def execBra (s : State) : Host.Outcome State Fault Refusal := branchIf true s

/-- JMP abs (R320). -/
def jumpAbs (s : State) : State :=
  let s := fetchTo setADL s
  let s := fetchTo setADH s
  setPC s.ad s

/-- JMP (abs) of the original 6502 (R321): 5 cycles, the high byte read in the pointer's own page. -/
def jumpIndirectBuggy (s : State) : State :=
  let s := fetchIndirect s
  let s := readTo setADL s.ia s
  let s := readTo setADH (word s.lat.iah (s.lat.ial + 1)) s
  setPC s.ad s

/-- JMP (abs), fixed (R321): 6 cycles, a dummy read of the instruction's last byte (D29), a full 16-bit increment. -/
def jumpIndirectFixed (s : State) : State :=
  let s := fetchIndirect s
  let s := dummyRead (s.pc - 1) s
  let s := readTo setADL s.ia s
  let s := readTo setADH (s.ia + 1) s
  setPC s.ad s

/-- JMP (abs,X) (R322): a full 16-bit add. -/
def jumpIndexed (s : State) : State :=
  let s := fetchBase s
  let s := dummyRead (s.pc - 1) s
  let s := setEA (s.ba + zext16 s.x) s
  let s := readTo setADL s.lat.ea s
  let s := readTo setADH (s.lat.ea + 1) s
  setPC s.ad s

/-- JMP (R320 to R322). -/
def execJmp (m : JmpMode) (s : State) : Host.Outcome State Fault Refusal :=
  match m with
  | .abs => finish (jumpAbs s)
  | .ind => finish (if s.cfg.jmpIndFixed then jumpIndirectFixed s else jumpIndirectBuggy s)
  | .iax => finish (jumpIndexed s)

/-- JSR (R323): the high operand byte is read after the pushes, at PC, which is not incremented. -/
def execJsr (s : State) : Host.Outcome State Fault Refusal :=
  let s := fetchTo setADL s
  let s := dummyRead (stackAddr s.sp) s
  let s := push (hiByte s.pc) s
  let s := push (loByte s.pc) s
  let s := readTo setADH s.pc s
  let s := emit .call s
  finish (setPC s.ad s)

/-- RTS (R324). -/
def execRts (s : State) : Host.Outcome State Fault Refusal :=
  let s := dummyRead s.pc s
  let s := dummyRead (stackAddr s.sp) s
  let s := pullTo setADL s
  let s := pullTo setADH s
  let s := dummyRead s.ad s
  finish (emit .ret (setPC (s.ad + 1) s))

/-- RTI (R325). -/
def execRti (s : State) : Host.Outcome State Fault Refusal := finish (returnFromInterrupt s)

/-- BRK (R330): the signature byte is read and skipped, then the entry shared with the interrupts, with B pushed as 1 and D
cleared on both variants (C4), and the `debug` hook. -/
def execBrk (s : State) : Host.Outcome State Fault Refusal :=
  let s := readCycle s.pc s
  let s := setPC (s.pc + 1) s
  let s := enterHandler true true irqVector s
  finish (emit .debug s)

/-- BBR0 (R326). -/
def execBbr0 (s : State) : Host.Outcome State Fault Refusal := branchOnBit 0 false s

/-- BBR1 (R326). -/
def execBbr1 (s : State) : Host.Outcome State Fault Refusal := branchOnBit 1 false s

/-- BBR2 (R326). -/
def execBbr2 (s : State) : Host.Outcome State Fault Refusal := branchOnBit 2 false s

/-- BBR3 (R326). -/
def execBbr3 (s : State) : Host.Outcome State Fault Refusal := branchOnBit 3 false s

/-- BBR4 (R326). -/
def execBbr4 (s : State) : Host.Outcome State Fault Refusal := branchOnBit 4 false s

/-- BBR5 (R326). -/
def execBbr5 (s : State) : Host.Outcome State Fault Refusal := branchOnBit 5 false s

/-- BBR6 (R326). -/
def execBbr6 (s : State) : Host.Outcome State Fault Refusal := branchOnBit 6 false s

/-- BBR7 (R326). -/
def execBbr7 (s : State) : Host.Outcome State Fault Refusal := branchOnBit 7 false s

/-- BBS0 (R327). -/
def execBbs0 (s : State) : Host.Outcome State Fault Refusal := branchOnBit 0 true s

/-- BBS1 (R327). -/
def execBbs1 (s : State) : Host.Outcome State Fault Refusal := branchOnBit 1 true s

/-- BBS2 (R327). -/
def execBbs2 (s : State) : Host.Outcome State Fault Refusal := branchOnBit 2 true s

/-- BBS3 (R327). -/
def execBbs3 (s : State) : Host.Outcome State Fault Refusal := branchOnBit 3 true s

/-- BBS4 (R327). -/
def execBbs4 (s : State) : Host.Outcome State Fault Refusal := branchOnBit 4 true s

/-- BBS5 (R327). -/
def execBbs5 (s : State) : Host.Outcome State Fault Refusal := branchOnBit 5 true s

/-- BBS6 (R327). -/
def execBbs6 (s : State) : Host.Outcome State Fault Refusal := branchOnBit 6 true s

/-- BBS7 (R327). -/
def execBbs7 (s : State) : Host.Outcome State Fault Refusal := branchOnBit 7 true s

end Sys2Proof.Machine
end

