-- ==== Sys2Proof/Machine/LoadStore.lean ====
section
/-! DEFINITION. The meanings of 41_load_store_transfer.md: loads, stores and register transfers. Each starts after the opcode
fetch and ends at the next boundary. -/

namespace Sys2Proof.Machine

/-- The operand byte in `put`'s register, N and Z from it: the loads (R200 to R202). -/
def loadInto (put : Byte → State → State) (m : ReadMode) (s : State) : Host.Outcome State Fault Refusal :=
  let s := loadOperand m s
  finish (setNZ s.lat.data (put s.lat.data s))

/-- A register copied, N and Z from it: the transfers but TXS (R207 to R211). -/
def transfer (put : Byte → State → State) (v : Byte) (s : State) : Host.Outcome State Fault Refusal :=
  finish (setNZ v (put v (implied s)))

/-- LDA (R200). -/
def execLda (m : ReadMode) (s : State) : Host.Outcome State Fault Refusal := loadInto setA m s

/-- LDX (R201). -/
def execLdx (m : ReadMode) (s : State) : Host.Outcome State Fault Refusal := loadInto setX m s

/-- LDY (R202). -/
def execLdy (m : ReadMode) (s : State) : Host.Outcome State Fault Refusal := loadInto setY m s

/-- STA (R203). -/
def execSta (m : AddrMode) (s : State) : Host.Outcome State Fault Refusal := finish (storeOperand m s.a s)

/-- STX (R204). -/
def execStx (m : AddrMode) (s : State) : Host.Outcome State Fault Refusal := finish (storeOperand m s.x s)

/-- STY (R205). -/
def execSty (m : AddrMode) (s : State) : Host.Outcome State Fault Refusal := finish (storeOperand m s.y s)

/-- STZ (R206). -/
def execStz (m : AddrMode) (s : State) : Host.Outcome State Fault Refusal := finish (storeOperand m 0x00 s)

/-- TAX (R207). -/
def execTax (s : State) : Host.Outcome State Fault Refusal := transfer setX s.a s

/-- TAY (R208). -/
def execTay (s : State) : Host.Outcome State Fault Refusal := transfer setY s.a s

/-- TXA (R209). -/
def execTxa (s : State) : Host.Outcome State Fault Refusal := transfer setA s.x s

/-- TYA (R210). -/
def execTya (s : State) : Host.Outcome State Fault Refusal := transfer setA s.y s

/-- TSX (R211). -/
def execTsx (s : State) : Host.Outcome State Fault Refusal := transfer setX s.sp s

/-- TXS (R212): the only transfer that writes no flag. -/
def execTxs (s : State) : Host.Outcome State Fault Refusal := finish (setSP s.x (implied s))

end Sys2Proof.Machine
end

