-- ==== Sys2Proof/Machine/Logic.lean ====
section
/-! DEFINITION. The meanings of 43_logic_shift_bit.md: AND, ORA, EOR, BIT, the shifts and rotates, and the 65C02 bit
instructions. -/

namespace Sys2Proof.Machine

/-- A <- f(A, M), N and Z from the result (R270 to R272). -/
def logicOp (f : Byte → Byte → Byte) (m : ReadMode) (s : State) : Host.Outcome State Fault Refusal :=
  let s := loadOperand m s
  finish (setNZ (f s.a s.lat.data) (setA (f s.a s.lat.data) s))

/-- A shift or rotate `f` of the accumulator or memory; C is bit `out` of the old value, N and Z come from the new one (R274 to
R277). -/
def shiftOp (f : Byte → Byte) (out : Nat) (m : RmwMode) (s : State) : Host.Outcome State Fault Refusal :=
  match m with
  | .acc => finish (setNZC (f s.a) (s.a.getLsbD out) (setA (f s.a) (implied s)))
  | .mem m =>
    let s := modifyOperand m f s
    finish (setNZC (f s.lat.data) (s.lat.data.getLsbD out) s)

/-- Z from A and the old byte (R278, R279). -/
def testBits (m : Byte) (s : State) : State :=
  { s with flags := { s.flags with z := (s.a &&& m) == 0 } }

/-- BIT's flags (R273): Z always; N and V from the operand's bits 7 and 6 but in the immediate form. -/
def bitFlags (m : ReadMode) (v : Byte) (s : State) : State :=
  match m with
  | .imm => testBits v s
  | .mem _ =>
    let s := testBits v s
    { s with flags := { s.flags with n := v.getLsbD 7, v := v.getLsbD 6 } }

/-- `1 << n` (R280, R281). -/
def bitMask (n : Nat) : Byte := BitVec.twoPow 8 n

/-- RMBn (R280): no flag is written. -/
def resetBit (n : Nat) (s : State) : Host.Outcome State Fault Refusal :=
  finish (modifyOperand .zp (fun m => m &&& (bitMask n ^^^ 0xFF)) s)

/-- SMBn (R281): no flag is written. -/
def setBit (n : Nat) (s : State) : Host.Outcome State Fault Refusal :=
  finish (modifyOperand .zp (fun m => m ||| bitMask n) s)

/-- AND (R270). -/
def execAnd (m : ReadMode) (s : State) : Host.Outcome State Fault Refusal := logicOp (· &&& ·) m s

/-- ORA (R271). -/
def execOra (m : ReadMode) (s : State) : Host.Outcome State Fault Refusal := logicOp (· ||| ·) m s

/-- EOR (R272). -/
def execEor (m : ReadMode) (s : State) : Host.Outcome State Fault Refusal := logicOp (· ^^^ ·) m s

/-- BIT (R273). -/
def execBit (m : ReadMode) (s : State) : Host.Outcome State Fault Refusal :=
  let s := loadOperand m s
  finish (bitFlags m s.lat.data s)

/-- ASL (R274). -/
def execAsl (m : RmwMode) (s : State) : Host.Outcome State Fault Refusal := shiftOp aslByte 7 m s

/-- LSR (R275). -/
def execLsr (m : RmwMode) (s : State) : Host.Outcome State Fault Refusal := shiftOp lsrByte 0 m s

/-- ROL (R276): C as before the instruction enters bit 0. -/
def execRol (m : RmwMode) (s : State) : Host.Outcome State Fault Refusal := shiftOp (rolByte s.flags.c) 7 m s

/-- ROR (R277): C as before the instruction enters bit 7. -/
def execRor (m : RmwMode) (s : State) : Host.Outcome State Fault Refusal := shiftOp (rorByte s.flags.c) 0 m s

/-- TSB (R278). -/
def execTsb (m : AddrMode) (s : State) : Host.Outcome State Fault Refusal :=
  let s := modifyOperand m (· ||| s.a) s
  finish (testBits s.lat.data s)

/-- TRB (R279). -/
def execTrb (m : AddrMode) (s : State) : Host.Outcome State Fault Refusal :=
  let s := modifyOperand m (· &&& (s.a ^^^ 0xFF)) s
  finish (testBits s.lat.data s)

/-- RMB0 (R280). -/
def execRmb0 (s : State) : Host.Outcome State Fault Refusal := resetBit 0 s

/-- RMB1 (R280). -/
def execRmb1 (s : State) : Host.Outcome State Fault Refusal := resetBit 1 s

/-- RMB2 (R280). -/
def execRmb2 (s : State) : Host.Outcome State Fault Refusal := resetBit 2 s

/-- RMB3 (R280). -/
def execRmb3 (s : State) : Host.Outcome State Fault Refusal := resetBit 3 s

/-- RMB4 (R280). -/
def execRmb4 (s : State) : Host.Outcome State Fault Refusal := resetBit 4 s

/-- RMB5 (R280). -/
def execRmb5 (s : State) : Host.Outcome State Fault Refusal := resetBit 5 s

/-- RMB6 (R280). -/
def execRmb6 (s : State) : Host.Outcome State Fault Refusal := resetBit 6 s

/-- RMB7 (R280). -/
def execRmb7 (s : State) : Host.Outcome State Fault Refusal := resetBit 7 s

/-- SMB0 (R281). -/
def execSmb0 (s : State) : Host.Outcome State Fault Refusal := setBit 0 s

/-- SMB1 (R281). -/
def execSmb1 (s : State) : Host.Outcome State Fault Refusal := setBit 1 s

/-- SMB2 (R281). -/
def execSmb2 (s : State) : Host.Outcome State Fault Refusal := setBit 2 s

/-- SMB3 (R281). -/
def execSmb3 (s : State) : Host.Outcome State Fault Refusal := setBit 3 s

/-- SMB4 (R281). -/
def execSmb4 (s : State) : Host.Outcome State Fault Refusal := setBit 4 s

/-- SMB5 (R281). -/
def execSmb5 (s : State) : Host.Outcome State Fault Refusal := setBit 5 s

/-- SMB6 (R281). -/
def execSmb6 (s : State) : Host.Outcome State Fault Refusal := setBit 6 s

/-- SMB7 (R281). -/
def execSmb7 (s : State) : Host.Outcome State Fault Refusal := setBit 7 s

end Sys2Proof.Machine
end

