-- ==== Sys2Proof/Machine/StackMisc.lean ====
section
/-! DEFINITION. The meanings of 45_stack_flags_misc.md: pushes, pulls, flag instructions, the NOPs and the NMOS illegal-opcode
stub. -/

namespace Sys2Proof.Machine

/-- The push sequence (R350). -/
def pushByte (v : Byte) (s : State) : Host.Outcome State Fault Refusal :=
  finish (push v (implied s))

/-- The pull sequence (R351): the stack is read as a dummy before SP is incremented; the byte goes where `put` says. -/
def pullByte (put : Byte → State → State) (s : State) : State :=
  let s := implied s
  let s := dummyRead (stackAddr s.sp) s
  pullTo put s

/-- A pull into a register, N and Z from the byte (R356, R358, R359). -/
def pullRegister (put : Byte → State → State) (s : State) : Host.Outcome State Fault Refusal :=
  finish (pullByte (fun v s => setNZ v (put v s)) s)

/-- PHA (R352). -/
def execPha (s : State) : Host.Outcome State Fault Refusal := pushByte s.a s

/-- PHP (R353): bits 5 and 4 of the pushed byte are 1. -/
def execPhp (s : State) : Host.Outcome State Fault Refusal := pushByte (pushedStatus true s.flags) s

/-- PHX (R354). -/
def execPhx (s : State) : Host.Outcome State Fault Refusal := pushByte s.x s

/-- PHY (R355). -/
def execPhy (s : State) : Host.Outcome State Fault Refusal := pushByte s.y s

/-- PLA (R356). -/
def execPla (s : State) : Host.Outcome State Fault Refusal := pullRegister setA s

/-- PLP (R357). -/
def execPlp (s : State) : Host.Outcome State Fault Refusal := finish (pullByte setStatusBits s)

/-- PLX (R358). -/
def execPlx (s : State) : Host.Outcome State Fault Refusal := pullRegister setX s

/-- PLY (R359). -/
def execPly (s : State) : Host.Outcome State Fault Refusal := pullRegister setY s

/-- A flag instruction: the IMP table, the flags changed by `f` (45 section 4). -/
def flagOp (f : Flags → Flags) (s : State) : Host.Outcome State Fault Refusal :=
  let s := implied s
  finish { s with flags := f s.flags }

/-- CLC (R360). -/
def execClc (s : State) : Host.Outcome State Fault Refusal := flagOp (fun f => { f with c := false }) s

/-- SEC (R361). -/
def execSec (s : State) : Host.Outcome State Fault Refusal := flagOp (fun f => { f with c := true }) s

/-- CLI (R362). -/
def execCli (s : State) : Host.Outcome State Fault Refusal := flagOp (fun f => { f with i := false }) s

/-- SEI (R363). -/
def execSei (s : State) : Host.Outcome State Fault Refusal := flagOp (fun f => { f with i := true }) s

/-- CLD (R364). -/
def execCld (s : State) : Host.Outcome State Fault Refusal := flagOp (fun f => { f with d := false }) s

/-- SED (R365). -/
def execSed (s : State) : Host.Outcome State Fault Refusal := flagOp (fun f => { f with d := true }) s

/-- CLV (R366). -/
def execClv (s : State) : Host.Outcome State Fault Refusal := flagOp (fun f => { f with v := false }) s

/-- The accesses of 0x5C after c1 (R376): the operand, then five dummy reads of the address it names. -/
def nopEight (s : State) : State :=
  let s := fetchTo setADL s
  let s := fetchTo setADH s
  let s := dummyRead s.ad s
  let s := dummyRead s.ad s
  let s := dummyRead s.ad s
  let s := dummyRead s.ad s
  dummyRead s.ad s

/-- NOP (R370 to R376): the accesses of the form, nothing else. The one-byte one-cycle form ends with its opcode fetch. -/
def execNop (f : NopForm) (s : State) : Host.Outcome State Fault Refusal :=
  match f with
  | .imp => finish (implied s)
  | .imp1 _ => finish s
  | .imm _ => finish (loadOperand .imm s)
  | .zp => finish (loadOperand (.mem .zp) s)
  | .zpx _ => finish (loadOperand (.mem .zpx) s)
  | .abs _ => finish (loadOperand (.mem .abs) s)
  | .abs8 => finish (nopEight s)

/-- The NMOS illegal-opcode stub (R385): the mark, PC to `a + P_ILLEGAL_LEN(op)` where `a + 1` is PC after the opcode fetch, and
the idle cycles. -/
def execIllegal (op : Byte) (s : State) : Host.Outcome State Fault Refusal :=
  let row := s.cfg.illegalRow op
  let s := markIllegal s
  let s := setPC (s.pc + BitVec.ofNat 16 row.operandBytes.val) s
  finish (idleCycles row.idleCycles s)

end Sys2Proof.Machine
end

