-- ==== Sys2Proof/Machine/Dispatch.lean ====
section
/-! DEFINITION. exec: one arm per instruction. The state given is the one after the opcode fetch (c1); the answer is the
boundary after the instruction's last cycle. -/

namespace Sys2Proof.Machine

def exec (i : Instr) (s : State) : Host.Outcome State Fault Refusal :=
  match i with
  | .lda m => Sys2Proof.Machine.execLda m s
  | .ldx m => Sys2Proof.Machine.execLdx m s
  | .ldy m => Sys2Proof.Machine.execLdy m s
  | .sta m => Sys2Proof.Machine.execSta m s
  | .stx m => Sys2Proof.Machine.execStx m s
  | .sty m => Sys2Proof.Machine.execSty m s
  | .stz m => Sys2Proof.Machine.execStz m s
  | .tax => Sys2Proof.Machine.execTax s
  | .tay => Sys2Proof.Machine.execTay s
  | .txa => Sys2Proof.Machine.execTxa s
  | .tya => Sys2Proof.Machine.execTya s
  | .tsx => Sys2Proof.Machine.execTsx s
  | .txs => Sys2Proof.Machine.execTxs s
  | .adc m => Sys2Proof.Machine.execAdc m s
  | .sbc m => Sys2Proof.Machine.execSbc m s
  | .cmp m => Sys2Proof.Machine.execCmp m s
  | .cpx m => Sys2Proof.Machine.execCpx m s
  | .cpy m => Sys2Proof.Machine.execCpy m s
  | .inc m => Sys2Proof.Machine.execInc m s
  | .dec m => Sys2Proof.Machine.execDec m s
  | .inx => Sys2Proof.Machine.execInx s
  | .iny => Sys2Proof.Machine.execIny s
  | .dex => Sys2Proof.Machine.execDex s
  | .dey => Sys2Proof.Machine.execDey s
  | .and m => Sys2Proof.Machine.execAnd m s
  | .ora m => Sys2Proof.Machine.execOra m s
  | .eor m => Sys2Proof.Machine.execEor m s
  | .bit m => Sys2Proof.Machine.execBit m s
  | .asl m => Sys2Proof.Machine.execAsl m s
  | .lsr m => Sys2Proof.Machine.execLsr m s
  | .rol m => Sys2Proof.Machine.execRol m s
  | .ror m => Sys2Proof.Machine.execRor m s
  | .tsb m => Sys2Proof.Machine.execTsb m s
  | .trb m => Sys2Proof.Machine.execTrb m s
  | .rmb0 => Sys2Proof.Machine.execRmb0 s
  | .rmb1 => Sys2Proof.Machine.execRmb1 s
  | .rmb2 => Sys2Proof.Machine.execRmb2 s
  | .rmb3 => Sys2Proof.Machine.execRmb3 s
  | .rmb4 => Sys2Proof.Machine.execRmb4 s
  | .rmb5 => Sys2Proof.Machine.execRmb5 s
  | .rmb6 => Sys2Proof.Machine.execRmb6 s
  | .rmb7 => Sys2Proof.Machine.execRmb7 s
  | .smb0 => Sys2Proof.Machine.execSmb0 s
  | .smb1 => Sys2Proof.Machine.execSmb1 s
  | .smb2 => Sys2Proof.Machine.execSmb2 s
  | .smb3 => Sys2Proof.Machine.execSmb3 s
  | .smb4 => Sys2Proof.Machine.execSmb4 s
  | .smb5 => Sys2Proof.Machine.execSmb5 s
  | .smb6 => Sys2Proof.Machine.execSmb6 s
  | .smb7 => Sys2Proof.Machine.execSmb7 s
  | .bcc => Sys2Proof.Machine.execBcc s
  | .bcs => Sys2Proof.Machine.execBcs s
  | .beq => Sys2Proof.Machine.execBeq s
  | .bne => Sys2Proof.Machine.execBne s
  | .bmi => Sys2Proof.Machine.execBmi s
  | .bpl => Sys2Proof.Machine.execBpl s
  | .bvc => Sys2Proof.Machine.execBvc s
  | .bvs => Sys2Proof.Machine.execBvs s
  | .bra => Sys2Proof.Machine.execBra s
  | .jmp m => Sys2Proof.Machine.execJmp m s
  | .jsr => Sys2Proof.Machine.execJsr s
  | .rts => Sys2Proof.Machine.execRts s
  | .rti => Sys2Proof.Machine.execRti s
  | .bbr0 => Sys2Proof.Machine.execBbr0 s
  | .bbr1 => Sys2Proof.Machine.execBbr1 s
  | .bbr2 => Sys2Proof.Machine.execBbr2 s
  | .bbr3 => Sys2Proof.Machine.execBbr3 s
  | .bbr4 => Sys2Proof.Machine.execBbr4 s
  | .bbr5 => Sys2Proof.Machine.execBbr5 s
  | .bbr6 => Sys2Proof.Machine.execBbr6 s
  | .bbr7 => Sys2Proof.Machine.execBbr7 s
  | .bbs0 => Sys2Proof.Machine.execBbs0 s
  | .bbs1 => Sys2Proof.Machine.execBbs1 s
  | .bbs2 => Sys2Proof.Machine.execBbs2 s
  | .bbs3 => Sys2Proof.Machine.execBbs3 s
  | .bbs4 => Sys2Proof.Machine.execBbs4 s
  | .bbs5 => Sys2Proof.Machine.execBbs5 s
  | .bbs6 => Sys2Proof.Machine.execBbs6 s
  | .bbs7 => Sys2Proof.Machine.execBbs7 s
  | .brk => Sys2Proof.Machine.execBrk s
  | .pha => Sys2Proof.Machine.execPha s
  | .php => Sys2Proof.Machine.execPhp s
  | .phx => Sys2Proof.Machine.execPhx s
  | .phy => Sys2Proof.Machine.execPhy s
  | .pla => Sys2Proof.Machine.execPla s
  | .plp => Sys2Proof.Machine.execPlp s
  | .plx => Sys2Proof.Machine.execPlx s
  | .ply => Sys2Proof.Machine.execPly s
  | .clc => Sys2Proof.Machine.execClc s
  | .sec => Sys2Proof.Machine.execSec s
  | .cli => Sys2Proof.Machine.execCli s
  | .sei => Sys2Proof.Machine.execSei s
  | .cld => Sys2Proof.Machine.execCld s
  | .sed => Sys2Proof.Machine.execSed s
  | .clv => Sys2Proof.Machine.execClv s
  | .nop f => Sys2Proof.Machine.execNop f s
  | .illegal op => Sys2Proof.Machine.execIllegal op s

end Sys2Proof.Machine
end

