-- ==== Sys2Proof/Machine/Step.lean ====
section
/-! DEFINITION. One step: the boundary step (R140) run to completion, as `nextInstruction()` runs it (R470). And where an
instruction is put so that the next step runs it. -/

namespace Sys2Proof.Machine

/-- The boundary step: the interrupt pending, if one is to be taken, else the instruction whose opcode c1 fetches at PC. A state
that is no boundary (`t` not 0) is refused (R58, R462; log 11). -/
def step (s : State) : Host.Outcome State Fault Refusal :=
  if s.t = 0 then
    match pendingInterrupt s with
    | some k => .next (takeInterrupt k s)
    | none => exec (decodeOpcode s.cfg.variant (fetchOpcode s).opcode) (fetchOpcode s)
  else .refused .midInstruction

/-- The bytes put at consecutive addresses, wrapping (R100). -/
def placeBytes : List Byte → Word → List Host.Cell → List Host.Cell
  | [], _, m => m
  | b :: bs, a, m => placeBytes bs (a + 1) (Memory.set m a.toNat b)

/-- `s` with an instruction of the opcode table where step fetches next, so that the very next step runs it: its three bytes
(those past `nbits` zero) stored at PC, those addresses answered as RAM, no interrupt waiting, a boundary (log 12). On
`State.reset` only memory changes. -/
def State.withFetchWord (s : State) (nbits w : Nat) : State :=
  { s with
    mem := placeBytes (tableBytes nbits w) s.pc s.mem
    cfg := if s.isRam s.pc && s.isRam (s.pc + 1) && s.isRam (s.pc + 2) then s.cfg
           else { s.cfg with ram := ⟨0x0000, 0xFFFF⟩ :: s.cfg.ram }
    t := 0
    pendingNMI := false
    pendingIRQ := false }

end Sys2Proof.Machine
end

