-- ==== Sys2Proof/Machine/HostActions.lean ====
section
/-! DEFINITION. The host's side of the core (70 section 5): the actions it may take between core steps, and the passive read.
No step of the machine takes one of them; they are operations on the state (log 10). -/

namespace Sys2Proof.Machine

/-- `raiseNMI()` (R402): requests coalesce. -/
def raiseNMI (s : State) : State := { s with pendingNMI := true }

/-- `raiseIRQ()` (R403): the latch stays set until the IRQ sequence is taken or reset clears it. -/
def raiseIRQ (s : State) : State := { s with pendingIRQ := true }

/-- The values reset leaves to chance (R451): A, X, Y, SP and the six flags. -/
structure ResetDraws where
  a     : Byte
  x     : Byte
  y     : Byte
  sp    : Byte
  flags : Flags
  deriving DecidableEq, Repr

/-- The effect of reset (R450): the latches cleared, the vector read in two cycles, PC from it, T 0, and the draws. `illegalSeen` stays
(R55); so does `opcode`, which the spec leaves unspecified and nothing reads (R50, R59): DESIGN CHOICE, log 24. -/
def resetCore (d : ResetDraws) (s : State) : State :=
  let s := { s with pendingNMI := false, pendingIRQ := false }
  let s := loadVector resetVector s
  { endInstr s with a := d.a, x := d.x, y := d.y, sp := d.sp, flags := d.flags }

/-- `reset()`, at an instruction boundary only (R450, D32). -/
def hostReset (d : ResetDraws) (s : State) : Host.Outcome State Fault Refusal :=
  if s.t = 0 then .next (resetCore d s) else .refused .midInstruction

/-- The snapshot (R57). `ps` is the status byte with bits 5 and 4 zero; `vstack` is the virtual call stack's state, outside the
core and carried opaquely, so its type is any (log 11). -/
structure Snapshot (V : Type) where
  pc         : Word
  sp         : Byte
  a          : Byte
  x          : Byte
  y          : Byte
  ps         : Byte
  t          : Nat
  cycles     : Nat
  pendingNMI : Bool
  pendingIRQ : Bool
  opcode     : Byte
  vstack     : V
  deriving DecidableEq, Repr

/-- `getState()`, at an instruction boundary only (R58, R462). -/
def getState {V : Type} (vstack : V) (s : State) : Host.Outcome (Snapshot V) Fault Refusal :=
  if s.t = 0 then
    .next
      { pc := s.pc, sp := s.sp, a := s.a, x := s.x, y := s.y, ps := statusByte s.flags, t := s.t, cycles := s.cycles,
        pendingNMI := s.pendingNMI, pendingIRQ := s.pendingIRQ, opcode := s.opcode, vstack := vstack }
  else .refused .midInstruction

/-- `setState(snapshot)` (R57, R58, R470): every field is written, the status byte through `setStatusBits`; a snapshot taken
inside an instruction is refused, and so is a restore there. -/
def setState {V : Type} (q : Snapshot V) (s : State) : Host.Outcome State Fault Refusal :=
  if s.t = 0 ∧ q.t = 0 then
    .next
      (setStatusBits q.ps
        { s with
          pc := q.pc, sp := q.sp, a := q.a, x := q.x, y := q.y, t := q.t, cycles := q.cycles
          pendingNMI := q.pendingNMI, pendingIRQ := q.pendingIRQ, opcode := q.opcode })
  else .refused .midInstruction

/-- `nextInstruction()` (R470): one boundary step, with the cycles it took. -/
def nextInstruction (s : State) : Host.Outcome (State × Nat) Fault Refusal :=
  match step s with
  | .next t => .next (t, t.cycles - s.cycles)
  | .fault r => .fault r
  | .refused r => .refused r

/-- Whole instructions while `cycles` is below `limit` and `stop`, asked after each, does not hold; at most `fuel` of them. -/
def runBelow (stop : State → Bool) (limit : Nat) : Nat → State → Host.Outcome State Fault Refusal
  | 0, s => .next s
  | fuel + 1, s =>
    if s.cycles < limit then
      match step s with
      | .next t => if stop t then .next t else runBelow stop limit fuel t
      | .fault r => .fault r
      | .refused r => .refused r
    else .next s

/-- `advanceClock(budget)` (R470): `nextInstruction` while the cycles consumed are below the budget and no stop condition holds,
"evaluated after every instruction". The stop conditions are the scheduler's (R7): `stop` is any predicate (log 16). Every step
takes at least one cycle, so `budget` steps suffice. -/
def advanceClock (stop : State → Bool) (budget : Nat) (s : State) : Host.Outcome State Fault Refusal :=
  runBelow stop (s.cycles + budget) budget s

/-- `readConst(address)` (R73): passive inspection; it changes no state and no execution calls it. -/
def readConst (addr : Word) (s : State) : Byte :=
  if s.isRam addr then Memory.get s.mem addr.toNat else Config.busInspect s.history addr

end Sys2Proof.Machine
end

