-- ==== Sys2Proof/Safety.lean ====
section
/-! DEFINITION. What claims use: the penalties of the cycle law, the machine's invariant, and what a run vouched for by the spec
is. -/

namespace Sys2Proof.Machine

/-- The index register of a mode whose index addition can carry (R143, R160, R167). -/
def penaltyIndex (m : AddrMode) (s : State) : Option Byte :=
  match m with
  | .abx => some s.x
  | .aby => some s.y
  | .izy => some s.y
  | .zp | .zpx | .zpy | .abs | .izx | .izp => none

/-- The index-carry penalty of a read-class access (R143): 1 where the base's low byte and the index carry. -/
def indexPenalty (m : ReadMode) (s : State) : Nat :=
  match m with
  | .imm => 0
  | .mem m =>
    match penaltyIndex m s with
    | none => 0
    | some index => if carries (address false m s).lat.bal index then 1 else 0

/-- The penalty of a branch (R143, R172): 1 where taken, 1 more where the target's page differs from that of the next
instruction. `s` is the state after the offset fetch. -/
def branchPenalty (taken : Bool) (s : State) : Nat :=
  if taken then (if hiByte s.branchTarget = hiByte s.pc then 1 else 2) else 0

/-- The state after the offset fetch of a relative branch. -/
def afterOffset (s : State) : State := fetchTo setOFF s

/-- The state after the offset fetch of BBR and BBS (R173 c5). -/
def afterBitOffset (s : State) : State :=
  let s := fetchTo setADL s
  let s := readTo setDATA (zeroPage s.lat.adl) s
  let s := dummyRead (zeroPage s.lat.adl) s
  fetchTo setOFF s

/-- The penalty of BBR and BBS. -/
def bitBranchPenalty (n : Nat) (value : Bool) (s : State) : Nat :=
  branchPenalty ((afterBitOffset s).lat.data.getLsbD n == value) (afterBitOffset s)

/-- The dynamic penalty of an instruction in the state after its opcode fetch (R143): index carry for the read class, taken and
page for branches, none for anything else. -/
def penalty (i : Instr) (s : State) : Nat :=
  match i with
  | .lda m | .ldx m | .ldy m | .adc m | .sbc m | .cmp m | .cpx m | .cpy m => indexPenalty m s
  | .and m | .ora m | .eor m | .bit m => indexPenalty m s
  | .bcc => branchPenalty (!s.flags.c) (afterOffset s)
  | .bcs => branchPenalty s.flags.c (afterOffset s)
  | .beq => branchPenalty s.flags.z (afterOffset s)
  | .bne => branchPenalty (!s.flags.z) (afterOffset s)
  | .bmi => branchPenalty s.flags.n (afterOffset s)
  | .bpl => branchPenalty (!s.flags.n) (afterOffset s)
  | .bvc => branchPenalty (!s.flags.v) (afterOffset s)
  | .bvs => branchPenalty s.flags.v (afterOffset s)
  | .bra => branchPenalty true (afterOffset s)
  | .bbr0 => bitBranchPenalty 0 false s
  | .bbr1 => bitBranchPenalty 1 false s
  | .bbr2 => bitBranchPenalty 2 false s
  | .bbr3 => bitBranchPenalty 3 false s
  | .bbr4 => bitBranchPenalty 4 false s
  | .bbr5 => bitBranchPenalty 5 false s
  | .bbr6 => bitBranchPenalty 6 false s
  | .bbr7 => bitBranchPenalty 7 false s
  | .bbs0 => bitBranchPenalty 0 true s
  | .bbs1 => bitBranchPenalty 1 true s
  | .bbs2 => bitBranchPenalty 2 true s
  | .bbs3 => bitBranchPenalty 3 true s
  | .bbs4 => bitBranchPenalty 4 true s
  | .bbs5 => bitBranchPenalty 5 true s
  | .bbs6 => bitBranchPenalty 6 true s
  | .bbs7 => bitBranchPenalty 7 true s
  | _ => 0

/-- The access numbers of a history (newest first) fall strictly and lie below `bound` (R85, R89). -/
def historyBelow (bound : Nat) : List BusEvent → Bool
  | [] => true
  | .read _ c :: rest => decide (c < bound) && historyBelow c rest
  | .write _ _ c :: rest => decide (c < bound) && historyBelow c rest
  | .hook _ :: rest => historyBelow bound rest

/-- How many bus accesses a history holds. -/
def accessCount : List BusEvent → Nat
  | [] => 0
  | .read _ _ :: rest => accessCount rest + 1
  | .write _ _ _ :: rest => accessCount rest + 1
  | .hook _ :: rest => accessCount rest

/-- The machine's invariant: an instruction boundary (R49), memory in canonical form, and a history whose accesses are numbered
in program order below the cycle counter (R85, R89). -/
def State.Inv (s : State) : Prop :=
  s.t = 0 ∧ Memory.wf s.mem = true ∧ historyBelow s.cycles s.history = true

/-- The state after `n` steps, if each answers a next state. -/
def stepTimes : Nat → State → Host.Outcome State Fault Refusal
  | 0, s => .next s
  | n + 1, s =>
    match step s with
    | .next t => stepTimes n t
    | .fault r => .fault r
    | .refused r => .refused r

/-- A run the spec vouches for: no illegal opcode has executed (R55, R385, U1). -/
def State.vouched (s : State) : Prop :=
  s.illegalSeen = false

end Sys2Proof.Machine
end

