-- ==== Sys2Proof/Certificates/Slice0/Obligations.lean ====
section
/-! DEFINITION. The statements for the provers. Every `exec` statement is about the state after the opcode fetch (c1), so `s.pc`
is the instruction's address + 1, `s.cycles` counts c1, and the answer is the boundary after the instruction's last cycle. -/

namespace Sys2Proof.Certificates

open Sys2Proof.Machine

/-! ## Words the statements use -/

/-- `exec` answers a next state of which `P` holds. -/
def Completes (i : Instr) (s : State) (P : State → Prop) : Prop :=
  ∃ t, exec i s = .next t ∧ P t

/-- The byte a read-class instruction's last read gives (DATA of R145). -/
def operandByte (m : ReadMode) (s : State) : Byte :=
  (loadOperand m s).lat.data

/-- The address a write or read-modify-write instruction stores to (EA of R145). -/
def storeAddr (m : AddrMode) (s : State) : Word :=
  (address true m s).lat.ea

/-- The byte a read-modify-write instruction reads before it writes. -/
def oldByte (m : AddrMode) (s : State) : Byte :=
  busAnswer (storeAddr m s) (address true m s)

/-- A, X, Y and SP as before. -/
def SameRegisters (s t : State) : Prop :=
  t.a = s.a ∧ t.x = s.x ∧ t.y = s.y ∧ t.sp = s.sp

/-- The state an instruction has no business with: the pending latches, the illegal mark, the configuration, the opcode
register; and T is 0 again. -/
def SameControl (s t : State) : Prop :=
  t.opcode = s.opcode ∧ t.pendingNMI = s.pendingNMI ∧ t.pendingIRQ = s.pendingIRQ ∧ t.illegalSeen = s.illegalSeen ∧
    t.cfg = s.cfg ∧ t.t = 0

/-- Every byte of memory reads as before. -/
def SameMemory (s t : State) : Prop :=
  ∀ n : Nat, Memory.get t.mem n = Memory.get s.mem n

/-- Every byte but the one at `addr` reads as before, and the one at `addr` reads `v` where the bus answers it as RAM (elsewhere
the write went to the bus alone). -/
def StoresAt (addr : Word) (v : Byte) (s t : State) : Prop :=
  (∀ n : Nat, n ≠ addr.toNat → Memory.get t.mem n = Memory.get s.mem n) ∧
    Memory.get t.mem addr.toNat = if s.isRam addr then v else Memory.get s.mem addr.toNat

/-- The whole address space is RAM (the premise of R72). -/
def AllRam (s : State) : Prop :=
  ∀ addr : Word, s.isRam addr = true

/-- The whole stack page is RAM. -/
def StackIsRam (s : State) : Prop :=
  ∀ sp : Byte, s.isRam (stackAddr sp) = true

/-- The byte memory holds at an address. -/
def byteAt (s : State) (addr : Word) : Byte :=
  Memory.get s.mem addr.toNat

/-- What the bus answers at `addr` in the `k`-th later cycle, when the history is `h` and memory is still that of `s`. -/
def answerAt (s : State) (k : Nat) (h : List BusEvent) (addr : Word) : Byte :=
  if s.isRam addr then Memory.get s.mem addr.toNat else Config.busRead h addr (s.cycles + k)

/-- `h` holds the bytes at the addresses as `t` does. -/
def SameBytes (addrs : List Word) (t h : State) : Prop :=
  ∀ addr ∈ addrs, byteAt h addr = byteAt t addr

/-- The flags with N and Z from a byte. -/
def flagsNZ (f : Flags) (v : Byte) : Flags :=
  { f with n := v.getLsbD 7, z := v == 0 }

/-- The effective addresses of R149 to R169, read off RAM. -/
def ramEA (m : AddrMode) (s : State) : Word :=
  let b := byteAt s s.pc
  let b2 := byteAt s (s.pc + 1)
  match m with
  | .zp => zeroPage b
  | .zpx => zeroPage (b + s.x)
  | .zpy => zeroPage (b + s.y)
  | .abs => word b2 b
  | .abx => word b2 b + zext16 s.x
  | .aby => word b2 b + zext16 s.y
  | .izx => word (byteAt s (zeroPage (b + s.x + 1))) (byteAt s (zeroPage (b + s.x)))
  | .izy => word (byteAt s (zeroPage (b + 1))) (byteAt s (zeroPage b)) + zext16 s.y
  | .izp => word (byteAt s (zeroPage (b + 1))) (byteAt s (zeroPage b))

/-- The dummy read of an indexed access: always for a write or read-modify-write, else on a carry. -/
def dummyAt (always : Bool) (hi lo index : Byte) : List Word :=
  if always = true ∨ 256 ≤ lo.toNat + index.toNat then [word hi (lo + index)] else []

/-- The addresses read, in order, while a mode forms its effective address (R149 to R171), in RAM. -/
def ramReads (always : Bool) (m : AddrMode) (s : State) : List Word :=
  let b := byteAt s s.pc
  let b2 := byteAt s (s.pc + 1)
  match m with
  | .zp => [s.pc]
  | .zpx => [s.pc, zeroPage b]
  | .zpy => [s.pc, zeroPage b]
  | .abs => [s.pc, s.pc + 1]
  | .abx => [s.pc, s.pc + 1] ++ dummyAt always b2 b s.x
  | .aby => [s.pc, s.pc + 1] ++ dummyAt always b2 b s.y
  | .izx => [s.pc, zeroPage b, zeroPage (b + s.x), zeroPage (b + s.x + 1)]
  | .izy =>
    [s.pc, zeroPage b, zeroPage (b + 1)] ++
      dummyAt always (byteAt s (zeroPage (b + 1))) (byteAt s (zeroPage b)) s.y
  | .izp => [s.pc, zeroPage b, zeroPage (b + 1)]

/-- Reads of consecutive cycles from cycle `c` on, oldest first. -/
def readEvents (c : Nat) : List Word → List BusEvent
  | [] => []
  | a :: as => .read a c :: readEvents (c + 1) as

/-- The history of `s` with reads of these addresses, oldest first, in the cycles that follow. -/
def historyAfter (s : State) (reads : List Word) : List BusEvent :=
  (readEvents s.cycles reads).reverse ++ s.history

/-- What the bus answers at `addr` right after reads of these addresses, whatever answers it: RAM or the oracle (R71). -/
def answerAfter (s : State) (reads : List Word) (addr : Word) : Byte :=
  answerAt s reads.length (historyAfter s reads) addr

/-- The first and the second operand byte, as the bus answers them. -/
def operand1 (s : State) : Byte := answerAfter s [] s.pc
def operand2 (s : State) : Byte := answerAfter s [s.pc] (s.pc + 1)

/-- The word at the zero-page pointer `p`, low byte first, wrapping in page 0, read right after reads of these addresses. -/
def pointerWord (s : State) (reads : List Word) (p : Byte) : Word :=
  word (answerAfter s (reads ++ [zeroPage p]) (zeroPage (p + 1))) (answerAfter s reads (zeroPage p))

/-- The base word of an indirect mode: at the operand byte plus X, after the dummy read of the operand byte's own address, for
`(zp,X)`; at the operand byte for `(zp),Y` and `(zp)`. -/
def izxWord (s : State) : Word := pointerWord s [s.pc, zeroPage (operand1 s)] (operand1 s + s.x)
def zpWord (s : State) : Word := pointerWord s [s.pc] (operand1 s)

/-- The effective addresses of R149 to R169, from what the bus answers. -/
def modeEA (m : AddrMode) (s : State) : Word :=
  match m with
  | .zp => zeroPage (operand1 s)
  | .zpx => zeroPage (operand1 s + s.x)
  | .zpy => zeroPage (operand1 s + s.y)
  | .abs => word (operand2 s) (operand1 s)
  | .abx => word (operand2 s) (operand1 s) + zext16 s.x
  | .aby => word (operand2 s) (operand1 s) + zext16 s.y
  | .izx => izxWord s
  | .izy => zpWord s + zext16 s.y
  | .izp => zpWord s

/-- The addresses read, in order, while a mode forms its effective address (R149 to R171), from what the bus answers. -/
def modeReads (always : Bool) (m : AddrMode) (s : State) : List Word :=
  let b := operand1 s
  match m with
  | .zp => [s.pc]
  | .zpx => [s.pc, zeroPage b]
  | .zpy => [s.pc, zeroPage b]
  | .abs => [s.pc, s.pc + 1]
  | .abx => [s.pc, s.pc + 1] ++ dummyAt always (operand2 s) b s.x
  | .aby => [s.pc, s.pc + 1] ++ dummyAt always (operand2 s) b s.y
  | .izx => [s.pc, zeroPage b, zeroPage (b + s.x), zeroPage (b + s.x + 1)]
  | .izy => [s.pc, zeroPage b, zeroPage (b + 1)] ++ dummyAt always (hiByte (zpWord s)) (loByte (zpWord s)) s.y
  | .izp => [s.pc, zeroPage b, zeroPage (b + 1)]

/-- The reads of a read-class instruction after its opcode fetch: the operand byte at PC, or those of the mode and the one at the
effective address. -/
def operandReads (m : ReadMode) (s : State) : List Word :=
  match m with
  | .imm => [s.pc]
  | .mem m => modeReads false m s ++ [modeEA m s]

/-- The write accesses of a history. -/
def writeEvents (h : List BusEvent) : List (Word × Byte × Nat) :=
  h.filterMap (fun e => match e with | .write a v c => some (a, v, c) | .read _ _ => none | .hook _ => none)

/-- The hook events of a history. -/
def hookEvents (h : List BusEvent) : List Hook :=
  h.filterMap (fun e => match e with | .hook k => some k | .read _ _ => none | .write _ _ _ => none)

/-- A byte whose nibbles are decimal digits. -/
def IsBcd (b : Byte) : Prop :=
  b.toNat / 16 ≤ 9 ∧ b.toNat % 16 ≤ 9

/-- The number two decimal digits stand for. -/
def bcdValue (b : Byte) : Nat :=
  10 * (b.toNat / 16) + b.toNat % 16

/-- A carry as a number. -/
def bit (c : Bool) : Nat := if c then 1 else 0

/-- The signed value of a byte with its low nibble cleared, `s8(b & 0xF0)` (R231). -/
def signedHigh (b : Byte) : Int :=
  if 8 ≤ b.toNat / 16 then 16 * (b.toNat / 16 : Nat) - 256 else 16 * (b.toNat / 16 : Nat)

/-! ## Which instruction writes what (R31 to R34, R41 to R46) -/

def writesN : Instr → Bool
  | .lda _ | .ldx _ | .ldy _ | .tax | .tay | .txa | .tya | .tsx => true
  | .adc _ | .sbc _ | .cmp _ | .cpx _ | .cpy _ | .inc _ | .dec _ | .inx | .iny | .dex | .dey => true
  | .and _ | .ora _ | .eor _ | .bit (.mem _) | .asl _ | .lsr _ | .rol _ | .ror _ => true
  | .pla | .plx | .ply | .plp | .rti => true
  | _ => false

def writesZ : Instr → Bool
  | .bit .imm | .tsb _ | .trb _ => true
  | i => writesN i

def writesV : Instr → Bool
  | .adc _ | .sbc _ | .bit (.mem _) | .clv | .plp | .rti => true
  | _ => false

def writesD : Instr → Bool
  | .sed | .cld | .brk | .plp | .rti => true
  | _ => false

def writesI : Instr → Bool
  | .sei | .cli | .brk | .plp | .rti => true
  | _ => false

def writesC : Instr → Bool
  | .adc _ | .sbc _ | .cmp _ | .cpx _ | .cpy _ | .asl _ | .lsr _ | .rol _ | .ror _ | .sec | .clc | .plp | .rti => true
  | _ => false

def writesA : Instr → Bool
  | .lda _ | .txa | .tya | .pla | .adc _ | .sbc _ | .and _ | .ora _ | .eor _ => true
  | .asl .acc | .lsr .acc | .rol .acc | .ror .acc | .inc .acc | .dec .acc => true
  | _ => false

def writesX : Instr → Bool
  | .ldx _ | .tax | .tsx | .plx | .inx | .dex => true
  | _ => false

def writesY : Instr → Bool
  | .ldy _ | .tay | .ply | .iny | .dey => true
  | _ => false

def writesSP : Instr → Bool
  | .txs | .pha | .php | .phx | .phy | .pla | .plp | .plx | .ply | .jsr | .rts | .rti | .brk => true
  | _ => false

/-- A read-modify-write instruction's operand and byte function (R460). -/
def rmwOf (i : Instr) (s : State) : Option (AddrMode × (Byte → Byte)) :=
  match i with
  | .asl (.mem m) => some (m, fun b => b <<< 1)
  | .lsr (.mem m) => some (m, fun b => b >>> 1)
  | .rol (.mem m) => some (m, fun b => (b <<< 1) ||| (if s.flags.c then 0x01 else 0x00))
  | .ror (.mem m) => some (m, fun b => (b >>> 1) ||| (if s.flags.c then 0x80 else 0x00))
  | .inc (.mem m) => some (m, fun b => b + 1)
  | .dec (.mem m) => some (m, fun b => b - 1)
  | .tsb m => some (m, fun b => b ||| s.a)
  | .trb m => some (m, fun b => b &&& ~~~s.a)
  | .rmb0 => some (.zp, fun b => b &&& 0xFE)
  | .rmb1 => some (.zp, fun b => b &&& 0xFD)
  | .rmb2 => some (.zp, fun b => b &&& 0xFB)
  | .rmb3 => some (.zp, fun b => b &&& 0xF7)
  | .rmb4 => some (.zp, fun b => b &&& 0xEF)
  | .rmb5 => some (.zp, fun b => b &&& 0xDF)
  | .rmb6 => some (.zp, fun b => b &&& 0xBF)
  | .rmb7 => some (.zp, fun b => b &&& 0x7F)
  | .smb0 => some (.zp, fun b => b ||| 0x01)
  | .smb1 => some (.zp, fun b => b ||| 0x02)
  | .smb2 => some (.zp, fun b => b ||| 0x04)
  | .smb3 => some (.zp, fun b => b ||| 0x08)
  | .smb4 => some (.zp, fun b => b ||| 0x10)
  | .smb5 => some (.zp, fun b => b ||| 0x20)
  | .smb6 => some (.zp, fun b => b ||| 0x40)
  | .smb7 => some (.zp, fun b => b ||| 0x80)
  | _ => none

/-- Instructions that write memory: stores, read-modify-writes, pushes, JSR and BRK. -/
def storesMemory (i : Instr) (s : State) : Bool :=
  match i with
  | .sta _ | .stx _ | .sty _ | .stz _ | .pha | .php | .phx | .phy | .jsr | .brk => true
  | _ => (rmwOf i s).isSome

/-- The condition of a relative branch (R311 to R319). -/
def branchCondition (i : Instr) (f : Flags) : Option Bool :=
  match i with
  | .bcc => some (!f.c)
  | .bcs => some f.c
  | .beq => some f.z
  | .bne => some (!f.z)
  | .bmi => some f.n
  | .bpl => some (!f.n)
  | .bvc => some (!f.v)
  | .bvs => some f.v
  | .bra => some true
  | _ => none

/-- The bit number of BBRn and BBSn and the value that takes the branch (R326, R327). -/
def bitBranch : Instr → Option (Nat × Bool)
  | .bbr0 => some (0, false)
  | .bbr1 => some (1, false)
  | .bbr2 => some (2, false)
  | .bbr3 => some (3, false)
  | .bbr4 => some (4, false)
  | .bbr5 => some (5, false)
  | .bbr6 => some (6, false)
  | .bbr7 => some (7, false)
  | .bbs0 => some (0, true)
  | .bbs1 => some (1, true)
  | .bbs2 => some (2, true)
  | .bbs3 => some (3, true)
  | .bbs4 => some (4, true)
  | .bbs5 => some (5, true)
  | .bbs6 => some (6, true)
  | .bbs7 => some (7, true)
  | _ => none

/-- What a flag instruction does to the flags (R360 to R366). -/
def flagEffect : Instr → Option (Flags → Flags)
  | .clc => some (fun f => { f with c := false })
  | .sec => some (fun f => { f with c := true })
  | .cli => some (fun f => { f with i := false })
  | .sei => some (fun f => { f with i := true })
  | .cld => some (fun f => { f with d := false })
  | .sed => some (fun f => { f with d := true })
  | .clv => some (fun f => { f with v := false })
  | _ => none

/-- The hook an instruction fires (R423). -/
def hooksFired : Instr → List Hook
  | .jsr => [.call]
  | .rts | .rti => [.ret]
  | .brk => [.debug]
  | _ => []

/-- D only: the same state with the decimal flag replaced. -/
def withD (b : Bool) (s : State) : State :=
  { s with flags := { s.flags with d := b } }

/-- Which interrupt a boundary takes (R140, R405, R406), in the spec's words. -/
def Takes (s : State) (k : Interrupt) : Prop :=
  (s.pendingNMI = true ∧ k = .nmi) ∨ (s.pendingNMI = false ∧ s.pendingIRQ = true ∧ s.flags.i = false ∧ k = .irq)

/-- A boundary at which an instruction runs. -/
def RunsInstruction (s : State) : Prop :=
  s.t = 0 ∧ s.pendingNMI = false ∧ (s.pendingIRQ = false ∨ s.flags.i = true)

/-- The state after the opcode fetch (R141). -/
def afterFetch (s : State) : State :=
  { s with
    opcode := busAnswer s.pc s
    pc := s.pc + 1
    t := s.t + 1
    cycles := s.cycles + 1
    history := .read s.pc s.cycles :: s.history }

end Sys2Proof.Certificates

open Sys2Proof Sys2Proof.Machine Sys2Proof.Certificates

/-! ## Encoding -/

/-- R100, R101, R104: decoding the bytes of a well-formed instruction gives the instruction, its operand and the bytes after. That
an NMOS illegal slot is one byte here, whatever its `P_ILLEGAL_LEN`, is the model's choice (log 25). -/
def Obligations.DecodeOfEncodeIsIdentity : Prop :=
  ∀ (v : Variant) (i : Instr) (o : Operand) (rest : List Byte), i.wf v = true → o.fits i = true →
    ∃ bytes, encode i o = some bytes ∧ decode v (bytes ++ rest) = .ok { instr := i, operand := o, rest := rest }

/-- R100, R113: each of the 256 opcodes of each variant selects one well-formed instruction, and encodes back to itself. -/
def Obligations.EveryOpcodeHasOneMeaning : Prop :=
  ∀ (v : Variant) (op : Byte), (decodeOpcode v op).wf v = true ∧ encodeOpcode (decodeOpcode v op) = some op

/-- Words written out from the encodings of the rules decode to the instructions they stand for. -/
def Obligations.SampleWordsDecode : Prop :=
  decodeOpcode .cmos65c02 0xB1 = .lda (.mem .izy) ∧ decodeOpcode .nmos6502 0x96 = .stx .zpy ∧
  decodeOpcode .nmos6502 0x69 = .adc .imm ∧ decodeOpcode .cmos65c02 0x3A = .dec .acc ∧
  decodeOpcode .cmos65c02 0x57 = .rmb5 ∧ decodeOpcode .cmos65c02 0x1E = .asl (.mem .abx) ∧
  decodeOpcode .cmos65c02 0x7C = .jmp .iax ∧ decodeOpcode .cmos65c02 0xFF = .bbs7 ∧
  decodeOpcode .nmos6502 0x00 = .brk ∧ decodeOpcode .cmos65c02 0xDA = .phx ∧
  decodeOpcode .cmos65c02 0xCB = .nop (.imp1 0xCB) ∧ decodeOpcode .nmos6502 0xCB = .illegal 0xCB

/-- R110, R111, R386: the opcodes that R111 lists, 105 of them, are illegal on the NMOS part, none is on the 65C02, and every
other opcode is the same instruction on both. -/
def Obligations.IllegalOpcodesOfTheVariants : Prop :=
  ((List.range 256).countP (fun n => (decodeOpcode .nmos6502 (BitVec.ofNat 8 n)).isIllegal) = 105) ∧
  (∀ op : Byte, (decodeOpcode .nmos6502 op).isIllegal = nmosIllegal op) ∧
  (∀ op : Byte, (decodeOpcode .cmos65c02 op).isIllegal = false) ∧
  (∀ op : Byte, (decodeOpcode .nmos6502 op).isIllegal = true ∨ decodeOpcode .nmos6502 op = decodeOpcode .cmos65c02 op)

/-! ## The boundary step -/

/-- R140, R141: where no interrupt is taken, the step is `exec` of the instruction whose opcode c1 fetches, after that fetch. -/
def Obligations.StepRunsTheDecodedInstruction : Prop :=
  ∀ (s : State) (i : Instr), RunsInstruction s → decodeOpcode s.cfg.variant (busAnswer s.pc s) = i →
    step s = exec i (afterFetch s)

/-- R400, R49: from any boundary the step answers a next state: no instruction, operand, address or bus answer stops the machine.
That the next state is a boundary (T is 0) rests on the model's one step per instruction (log 7). -/
def Obligations.EveryBoundaryStepAnswersABoundary : Prop :=
  ∀ s : State, s.t = 0 → ∃ t, step s = .next t ∧ t.t = 0

/-- R407 to R412: the whole of the interrupt sequence. -/
def Obligations.InterruptSequenceIsPrecise : Prop :=
  ∀ (s : State) (k : Interrupt), s.t = 0 → Memory.wf s.mem = true → Takes s k →
    let vec : Word := if k = .nmi then 0xFFFA else 0xFFFE
    let c := s.cycles
    let status := pushedStatus s.cfg.hwIntPushedB s.flags
    let h5 := .write (stackAddr (s.sp - 2)) status (c + 4) :: .write (stackAddr (s.sp - 1)) (loByte s.pc) (c + 3) ::
      .write (stackAddr s.sp) (hiByte s.pc) (c + 2) :: .read s.pc (c + 1) :: .read s.pc c :: s.history
    let h6 := .read vec (c + 5) :: h5
    let clearsD := s.cfg.variant = .cmos65c02 ∨ s.cfg.nmosHwIntClearsD = true
    ∃ t, step s = .next t ∧
      t.pc = word (answerAt s 6 h6 (vec + 1)) (answerAt s 5 h5 vec) ∧
      t.history = .read (vec + 1) (c + 6) :: h6 ∧ t.cycles = c + 7 ∧ t.t = 0 ∧
      t.a = s.a ∧ t.x = s.x ∧ t.y = s.y ∧ t.sp = s.sp - 3 ∧
      t.flags = { s.flags with i := true, d := if clearsD then false else s.flags.d } ∧
      t.pendingNMI = (if k = .nmi then false else s.pendingNMI) ∧ t.pendingIRQ = (if k = .irq then false else s.pendingIRQ) ∧
      t.opcode = busAnswer s.pc s ∧ t.illegalSeen = s.illegalSeen ∧ t.cfg = s.cfg ∧
      (∀ n : Nat, n ≠ (stackAddr s.sp).toNat → n ≠ (stackAddr (s.sp - 1)).toNat → n ≠ (stackAddr (s.sp - 2)).toNat →
        Memory.get t.mem n = Memory.get s.mem n) ∧
      (s.isRam (stackAddr s.sp) = true → byteAt t (stackAddr s.sp) = hiByte s.pc) ∧
      (s.isRam (stackAddr (s.sp - 1)) = true → byteAt t (stackAddr (s.sp - 1)) = loByte s.pc) ∧
      (s.isRam (stackAddr (s.sp - 2)) = true → byteAt t (stackAddr (s.sp - 2)) = status)

/-- R403, R406: with I set and no NMI, a pending IRQ is not taken: the instruction runs, and the request stays. -/
def Obligations.MaskedIrqStaysPending : Prop :=
  ∀ s : State, s.t = 0 → s.pendingNMI = false → s.pendingIRQ = true → s.flags.i = true →
    ∃ t, step s = .next t ∧ t.pendingIRQ = true ∧
      step s = exec (decodeOpcode s.cfg.variant (busAnswer s.pc s)) (afterFetch s)

/-- R404, R412, R10, R50: no instruction touches a pending latch or the configuration, nor, after its opcode fetch, the opcode
register. (The fetch c1 writes `opcode`, R50; it is `step`'s, and `exec` starts after it, log 18.) -/
def Obligations.InstructionsKeepLatchesAndConfiguration : Prop :=
  ∀ (i : Instr) (s t : State), exec i s = .next t →
    t.pendingNMI = s.pendingNMI ∧ t.pendingIRQ = s.pendingIRQ ∧ t.cfg = s.cfg ∧ t.opcode = s.opcode

/-! ## Entry and return undo each other -/

/-- R413, R415, R328: RTI at the end of a handler that left SP, and the three bytes the entry pushed, as the entry did resumes the preempted instruction
with its flags. -/
def Obligations.InterruptThenRtiResumes : Prop :=
  ∀ (s : State) (k : Interrupt), s.t = 0 → Memory.wf s.mem = true → StackIsRam s → Takes s k →
    ∃ t, step s = .next t ∧
      ∀ h : State, h.sp = t.sp → SameBytes [stackAddr s.sp, stackAddr (s.sp - 1), stackAddr (s.sp - 2)] t h → h.cfg = t.cfg →
        Completes .rti h (fun u => u.pc = s.pc ∧ u.flags = s.flags ∧ u.sp = s.sp ∧
          u.a = h.a ∧ u.x = h.x ∧ u.y = h.y ∧ SameMemory h u)

/-- R328: RTS at the end of a subroutine that left SP, and the two bytes JSR pushed, as JSR did goes to the instruction after the JSR (whose
address is `s.pc - 1`). -/
def Obligations.JsrThenRtsReturns : Prop :=
  ∀ s : State, Memory.wf s.mem = true → StackIsRam s →
    Completes .jsr s (fun t =>
      ∀ h : State, h.sp = t.sp → SameBytes [stackAddr s.sp, stackAddr (s.sp - 1)] t h → h.cfg = t.cfg →
        Completes .rts h (fun u => u.pc = s.pc + 2 ∧ u.sp = s.sp ∧ u.flags = h.flags ∧
          u.a = h.a ∧ u.x = h.x ∧ u.y = h.y ∧ SameMemory h u))

/-- R328, R330: RTI from a BRK handler that left SP, and the three bytes BRK pushed, as BRK did goes to BRK's address + 2 with the flags as before BRK. -/
def Obligations.BrkThenRtiSkipsTheSignature : Prop :=
  ∀ s : State, Memory.wf s.mem = true → StackIsRam s →
    Completes .brk s (fun t =>
      ∀ h : State, h.sp = t.sp → SameBytes [stackAddr s.sp, stackAddr (s.sp - 1), stackAddr (s.sp - 2)] t h → h.cfg = t.cfg →
        Completes .rti h (fun u => u.pc = s.pc + 1 ∧ u.sp = s.sp ∧ u.flags = s.flags ∧
          u.a = h.a ∧ u.x = h.x ∧ u.y = h.y ∧ SameMemory h u))

/-- R34, R352 to R359: a pull gives back what the push before it stored, and SP, if SP and that byte are as the push left
them. -/
def Obligations.PullGivesBackWhatWasPushed : Prop :=
  ∀ (s : State), Memory.wf s.mem = true → StackIsRam s →
    Completes .pha s (fun t => ∀ h : State, h.sp = t.sp → SameBytes [stackAddr s.sp] t h → h.cfg = t.cfg →
      Completes .pla h (fun u => u.a = s.a ∧ u.sp = s.sp)) ∧
    Completes .phx s (fun t => ∀ h : State, h.sp = t.sp → SameBytes [stackAddr s.sp] t h → h.cfg = t.cfg →
      Completes .plx h (fun u => u.x = s.x ∧ u.sp = s.sp)) ∧
    Completes .phy s (fun t => ∀ h : State, h.sp = t.sp → SameBytes [stackAddr s.sp] t h → h.cfg = t.cfg →
      Completes .ply h (fun u => u.y = s.y ∧ u.sp = s.sp)) ∧
    Completes .php s (fun t => ∀ h : State, h.sp = t.sp → SameBytes [stackAddr s.sp] t h → h.cfg = t.cfg →
      Completes .plp h (fun u => u.flags = s.flags ∧ u.sp = s.sp))

/-! ## Whole-machine rules -/

/-- R49, R85, R89: every step keeps the invariant: a boundary, canonical memory, a history numbered in program order below the
cycle counter. -/
def Obligations.StepKeepsInvariant : Prop :=
  ∀ s t : State, s.Inv → step s = .next t → t.Inv

/-- The invariant holds right after reset (of `State.reset`, whose variant, registers and memory are the model's choice: logs 2, 3
and 6). -/
def Obligations.ResetMeetsInvariant : Prop :=
  State.reset.Inv

/-- R10: no step changes the configuration (a field of the state by the model's choice: log 1). -/
def Obligations.StepKeepsConfiguration : Prop :=
  ∀ s t : State, step s = .next t → t.cfg = s.cfg

/-- R55, R385, R425: a step sets the illegal mark exactly where it runs an illegal opcode, and none clears it. -/
def Obligations.OnlyTheStubSetsTheIllegalMark : Prop :=
  ∀ s t : State, step s = .next t →
    (t.illegalSeen = true ↔
      s.illegalSeen = true ∨
        (RunsInstruction s ∧ (decodeOpcode s.cfg.variant (busAnswer s.pc s)).isIllegal = true))

/-- R143: the cycles of an instruction, its opcode fetch among them (the 1 on the left), are its base cycles plus the
penalties. -/
def Obligations.CycleCountLaw : Prop :=
  ∀ (i : Instr) (s : State),
    Completes i s (fun t => t.cycles + 1 = s.cycles + i.baseCycles s.cfg + penalty i s)

/-- R142, R85: the history only grows, by one access for each cycle, but for the stub, which adds none. -/
def Obligations.OneBusAccessPerCycle : Prop :=
  ∀ (i : Instr) (s t : State), exec i s = .next t →
    ∃ new, t.history = new ++ s.history ∧
      (i.isIllegal = false → s.cycles + accessCount new = t.cycles) ∧ (i.isIllegal = true → new = [])

/-- R41 to R46: an instruction that is not among a flag's writers leaves it alone. -/
def Obligations.OnlyWritersChangeAFlag : Prop :=
  ∀ (i : Instr) (s t : State), exec i s = .next t →
    (writesN i = false → t.flags.n = s.flags.n) ∧ (writesV i = false → t.flags.v = s.flags.v) ∧
    (writesD i = false → t.flags.d = s.flags.d) ∧ (writesI i = false → t.flags.i = s.flags.i) ∧
    (writesZ i = false → t.flags.z = s.flags.z) ∧ (writesC i = false → t.flags.c = s.flags.c)

/-- R31 to R34: an instruction that is not among a register's writers leaves it alone. -/
def Obligations.OnlyWritersChangeARegister : Prop :=
  ∀ (i : Instr) (s t : State), exec i s = .next t →
    (writesA i = false → t.a = s.a) ∧ (writesX i = false → t.x = s.x) ∧
    (writesY i = false → t.y = s.y) ∧ (writesSP i = false → t.sp = s.sp)

/-- R144, R82: only stores, read-modify-writes, pushes, JSR and BRK write: any other instruction leaves every byte of memory
alone and makes no write access. -/
def Obligations.OnlyStoresWrite : Prop :=
  ∀ (i : Instr) (s t : State), exec i s = .next t → storesMemory i s = false →
    SameMemory s t ∧ writeEvents t.history = writeEvents s.history

/-- R35: an instruction that is no control transfer leaves PC past its bytes. -/
def Obligations.SequentialInstructionsAdvancePC : Prop :=
  ∀ (i : Instr) (s t : State), exec i s = .next t → i.flow = .none →
    t.pc = s.pc + BitVec.ofNat 16 (i.byteLength s.cfg - 1)

/-- R423: JSR fires `call`, RTS and RTI `return`, BRK `debug`, each once, and no other instruction fires a hook. -/
def Obligations.HooksFired : Prop :=
  ∀ (i : Instr) (s t : State), exec i s = .next t → hookEvents t.history = hooksFired i ++ hookEvents s.history

/-- R43, R251: D changes only ADC and SBC (and, R39, the status byte that PHP and BRK push): any other instruction does the same
whatever D holds. -/
def Obligations.OnlyAdcSbcPhpAndBrkReadTheDecimalFlag : Prop :=
  ∀ (i : Instr) (s t : State) (b : Bool), (∀ m, i ≠ .adc m) → (∀ m, i ≠ .sbc m) → i ≠ .php → i ≠ .brk →
    exec i s = .next t → Completes i (withD b s) (fun u => withD t.flags.d u = t)

/-! ## Addressing modes -/

/-- R149, R152, R156, R159, R163, R166, R169: the effective address of each mode and the operand byte, from what the bus answers;
and the same read off memory where the whole address space is RAM. -/
def Obligations.EffectiveAddresses : Prop :=
  ∀ (always : Bool) (m : AddrMode) (s : State),
    (address always m s).lat.ea = modeEA m s ∧
    operandByte (.mem m) s = answerAfter s (modeReads false m s) (modeEA m s) ∧ operandByte .imm s = operand1 s ∧
    (AllRam s → modeEA m s = ramEA m s ∧ operandByte (.mem m) s = byteAt s (ramEA m s))

/-- R149 to R171: the reads of each mode up to its effective address, from what the bus answers: which addresses, in which
cycles, and that nothing but PC and the latches changes otherwise; and the same where the whole address space is RAM. -/
def Obligations.AddressingCycles : Prop :=
  ∀ (always : Bool) (m : AddrMode) (s : State),
    let reads := modeReads always m s
    let u := address always m s
    u.history = historyAfter s reads ∧ u.cycles = s.cycles + reads.length ∧
    { u with history := s.history, cycles := s.cycles, t := s.t, pc := s.pc, lat := s.lat } = s ∧
    (AllRam s → reads = ramReads always m s)

/-! ## Loads, stores, transfers -/

/-- R200 to R202, R145: LDA, LDX and LDY, with every read of the form, the operand's last (R148 to R170). -/
def Obligations.Loads : Prop :=
  ∀ (m : ReadMode) (s : State),
    let v := operandByte m s
    Completes (.lda m) s (fun t => t.a = v ∧ t.x = s.x ∧ t.y = s.y ∧ t.sp = s.sp ∧ t.flags = flagsNZ s.flags v ∧
      t.history = historyAfter s (operandReads m s) ∧ SameMemory s t ∧ SameControl s t) ∧
    Completes (.ldx m) s (fun t => t.a = s.a ∧ t.x = v ∧ t.y = s.y ∧ t.sp = s.sp ∧ t.flags = flagsNZ s.flags v ∧
      t.history = historyAfter s (operandReads m s) ∧ SameMemory s t ∧ SameControl s t) ∧
    Completes (.ldy m) s (fun t => t.a = s.a ∧ t.x = s.x ∧ t.y = v ∧ t.sp = s.sp ∧ t.flags = flagsNZ s.flags v ∧
      t.history = historyAfter s (operandReads m s) ∧ SameMemory s t ∧ SameControl s t)

/-- R203 to R206: STA, STX, STY and STZ: one write, in the last cycle. -/
def Obligations.Stores : Prop :=
  ∀ (m : AddrMode) (s : State), Memory.wf s.mem = true →
    let u := address true m s
    let stored (v : Byte) (t : State) : Prop :=
      StoresAt (storeAddr m s) v s t ∧ t.history = .write (storeAddr m s) v u.cycles :: u.history ∧
        SameRegisters s t ∧ t.flags = s.flags ∧ SameControl s t
    Completes (.sta m) s (stored s.a) ∧ Completes (.stx m) s (stored s.x) ∧
    Completes (.sty m) s (stored s.y) ∧ Completes (.stz m) s (stored 0x00)

/-- R207 to R212, R146: the transfers, after a dummy read of PC; TXS writes no flag. -/
def Obligations.Transfers : Prop :=
  ∀ s : State,
    Completes .tax s (fun t => t.a = s.a ∧ t.x = s.a ∧ t.y = s.y ∧ t.sp = s.sp ∧ t.flags = flagsNZ s.flags s.a ∧
      t.history = .read s.pc s.cycles :: s.history ∧ SameMemory s t ∧ SameControl s t) ∧
    Completes .tay s (fun t => t.a = s.a ∧ t.x = s.x ∧ t.y = s.a ∧ t.sp = s.sp ∧ t.flags = flagsNZ s.flags s.a ∧
      t.history = .read s.pc s.cycles :: s.history ∧ SameMemory s t ∧ SameControl s t) ∧
    Completes .txa s (fun t => t.a = s.x ∧ t.x = s.x ∧ t.y = s.y ∧ t.sp = s.sp ∧ t.flags = flagsNZ s.flags s.x ∧
      t.history = .read s.pc s.cycles :: s.history ∧ SameMemory s t ∧ SameControl s t) ∧
    Completes .tya s (fun t => t.a = s.y ∧ t.x = s.x ∧ t.y = s.y ∧ t.sp = s.sp ∧ t.flags = flagsNZ s.flags s.y ∧
      t.history = .read s.pc s.cycles :: s.history ∧ SameMemory s t ∧ SameControl s t) ∧
    Completes .tsx s (fun t => t.a = s.a ∧ t.x = s.sp ∧ t.y = s.y ∧ t.sp = s.sp ∧ t.flags = flagsNZ s.flags s.sp ∧
      t.history = .read s.pc s.cycles :: s.history ∧ SameMemory s t ∧ SameControl s t) ∧
    Completes .txs s (fun t => t.a = s.a ∧ t.x = s.x ∧ t.y = s.y ∧ t.sp = s.x ∧ t.flags = s.flags ∧
      t.history = .read s.pc s.cycles :: s.history ∧ SameMemory s t ∧ SameControl s t)

/-! ## Arithmetic -/

/-- R233, R237: ADC and SBC write the result and the four flags of the core that D and the variant select; D and I stay. -/
def Obligations.AddAndSubtractApplyTheirCore : Prop :=
  ∀ (m : ReadMode) (s : State),
    let v := operandByte m s
    let add := if s.flags.d then
        (if s.cfg.variant = .nmos6502 then adcDecimalNmos s.a v s.flags.c else adcDecimalCmos s.a v s.flags.c)
      else adcBinary s.a v s.flags.c
    let sub := if s.flags.d then
        (if s.cfg.variant = .nmos6502 then sbcDecimalNmos s.a v s.flags.c else sbcDecimalCmos s.a v s.flags.c)
      else sbcBinary s.a v s.flags.c
    let applied (q : Arith) (t : State) : Prop :=
      t.a = q.r ∧ t.flags = { s.flags with n := q.n, v := q.v, z := q.z, c := q.c } ∧
        t.x = s.x ∧ t.y = s.y ∧ t.sp = s.sp ∧
        t.history = historyAfter s (operandReads m s) ∧ SameMemory s t ∧ SameControl s t
    Completes (.adc m) s (applied add) ∧ Completes (.sbc m) s (applied sub)

/-- R230, R42, R250: the binary sum: nine bits of result and carry hold the exact sum; V says that the signed sum does not fit (a
consequence of R230's bit formula). -/
def Obligations.BinaryAdcIsTheExactSum : Prop :=
  ∀ (a m : Byte) (c : Bool),
    let q := adcBinary a m c
    q.r.toNat + 256 * bit q.c = a.toNat + m.toNat + bit c ∧
    (q.v = true ↔ a.toInt + m.toInt + bit c < -128 ∨ 127 < a.toInt + m.toInt + bit c) ∧
    (q.n = true ↔ 128 ≤ q.r.toNat) ∧ (q.z = true ↔ q.r = 0)

/-- R234: the binary difference: C is the absence of a borrow; V says that the signed difference does not fit. -/
def Obligations.BinarySbcIsTheExactDifference : Prop :=
  ∀ (a m : Byte) (c : Bool),
    let q := sbcBinary a m c
    (q.r.toNat : Int) - 256 * (1 - bit q.c) = (a.toNat : Int) - m.toNat - (1 - bit c) ∧
    (q.v = true ↔ a.toInt - m.toInt - (1 - bit c) < -128 ∨ 127 < a.toInt - m.toInt - (1 - bit c)) ∧
    (q.n = true ↔ 128 ≤ q.r.toNat) ∧ (q.z = true ↔ q.r = 0)

/-- R234: "This equals R230 applied to (A, M ^ 0xFF, C)". -/
def Obligations.BinarySbcIsAdcOfTheComplement : Prop :=
  ∀ (a m : Byte) (c : Bool), sbcBinary a m c = adcBinary a (m ^^^ 0xFF) c

/-- R231, R232, R252: the decimal sum of every two bytes and carry, by the rule's sequence on numbers: the NMOS result with N from
the sum before the high-nibble adjustment, V from the same sum signed, Z from the binary sum; the 65C02 takes N and Z from the
result. On decimal digits it is the sum mod 100 with its carry. -/
def Obligations.DecimalAdc : Prop :=
  ∀ (a m : Byte) (c : Bool),
    let q := adcDecimalNmos a m c
    let w := adcDecimalCmos a m c
    let low := a.toNat % 16 + m.toNat % 16 + bit c
    let al := if 10 ≤ low then (low + 6) % 16 + 16 else low
    let sum := 16 * (a.toNat / 16) + 16 * (m.toNat / 16) + al
    let signed := signedHigh a + signedHigh m + al
    let adjusted := if 160 ≤ sum then sum + 96 else sum
    q.r.toNat = adjusted % 256 ∧ (q.c = true ↔ 256 ≤ adjusted) ∧ (q.n = true ↔ 128 ≤ sum % 256) ∧
    (q.v = true ↔ signed < -128 ∨ 127 < signed) ∧ (q.z = true ↔ (a.toNat + m.toNat + bit c) % 256 = 0) ∧
    w.r = q.r ∧ w.c = q.c ∧ w.v = q.v ∧ (w.n = true ↔ 128 ≤ w.r.toNat) ∧ (w.z = true ↔ w.r = 0) ∧
    (IsBcd a → IsBcd m → IsBcd q.r ∧ bcdValue q.r + 100 * bit q.c = bcdValue a + bcdValue m + bit c)

/-- R235, R236, R252: the decimal difference of every two bytes and carry, by the rules' two sequences on numbers; the NMOS flags
are the binary ones, the 65C02 takes V and C from there, N and Z from the result. On decimal digits both variants give the
difference mod 100, and C the absence of a borrow. -/
def Obligations.DecimalSbc : Prop :=
  ∀ (a m : Byte) (c : Bool),
    let q := sbcDecimalNmos a m c
    let w := sbcDecimalCmos a m c
    let b := sbcBinary a m c
    let low : Int := (a.toNat % 16 : Nat) - (m.toNat % 16 : Nat) + bit c - 1
    let al := if low < 0 then (low - 6) % 16 - 16 else low
    let sum : Int := (16 * (a.toNat / 16) : Nat) - (16 * (m.toNat / 16) : Nat) + al
    let diff : Int := (a.toNat : Int) - m.toNat + bit c - 1
    let diff6 := if diff < 0 then diff - 96 else diff
    (q.r.toNat : Int) = (if sum < 0 then sum - 96 else sum) % 256 ∧
    q.n = b.n ∧ q.v = b.v ∧ q.z = b.z ∧ q.c = b.c ∧
    (w.r.toNat : Int) = (if low < 0 then diff6 - 6 else diff6) % 256 ∧
    w.v = b.v ∧ w.c = b.c ∧ (w.n = true ↔ 128 ≤ w.r.toNat) ∧ (w.z = true ↔ w.r = 0) ∧
    (IsBcd a → IsBcd m → w.r = q.r ∧ IsBcd q.r ∧
      (bcdValue q.r : Int) - 100 * (1 - bit q.c) = (bcdValue a : Int) - bcdValue m - (1 - bit c))

/-- R238 to R241: CMP, CPX and CPY write N, Z and C from the difference, and nothing else. -/
def Obligations.Compares : Prop :=
  ∀ (m : ReadMode) (s : State),
    let v := operandByte m s
    let compared (r : Byte) (t : State) : Prop :=
      (t.flags.c = true ↔ v.toNat ≤ r.toNat) ∧ (t.flags.z = true ↔ r = v) ∧ t.flags.n = (r - v).getLsbD 7 ∧
        t.flags.v = s.flags.v ∧ t.flags.d = s.flags.d ∧ t.flags.i = s.flags.i ∧
        t.history = historyAfter s (operandReads m s) ∧ SameRegisters s t ∧ SameMemory s t ∧ SameControl s t
    Completes (.cmp m) s (compared s.a) ∧ Completes (.cpx m) s (compared s.x) ∧ Completes (.cpy m) s (compared s.y)

/-- R242 to R245, R147: INC and DEC of memory and of the accumulator. -/
def Obligations.IncrementsAndDecrements : Prop :=
  ∀ s : State,
    (∀ m : AddrMode, Memory.wf s.mem = true →
      let old := oldByte m s
      Completes (.inc (.mem m)) s (fun t => StoresAt (storeAddr m s) (old + 1) s t ∧ t.flags = flagsNZ s.flags (old + 1) ∧
        SameRegisters s t ∧ SameControl s t) ∧
      Completes (.dec (.mem m)) s (fun t => StoresAt (storeAddr m s) (old - 1) s t ∧ t.flags = flagsNZ s.flags (old - 1) ∧
        SameRegisters s t ∧ SameControl s t)) ∧
    Completes (.inc .acc) s (fun t => t.a = s.a + 1 ∧ t.flags = flagsNZ s.flags (s.a + 1) ∧
      t.x = s.x ∧ t.y = s.y ∧ t.sp = s.sp ∧ t.history = .read s.pc s.cycles :: s.history ∧
      SameMemory s t ∧ SameControl s t) ∧
    Completes (.dec .acc) s (fun t => t.a = s.a - 1 ∧ t.flags = flagsNZ s.flags (s.a - 1) ∧
      t.x = s.x ∧ t.y = s.y ∧ t.sp = s.sp ∧ t.history = .read s.pc s.cycles :: s.history ∧
      SameMemory s t ∧ SameControl s t)

/-- R246 to R249, R146: INX, INY, DEX and DEY, after a dummy read of PC. -/
def Obligations.IndexIncrementsAndDecrements : Prop :=
  ∀ s : State,
    Completes .inx s (fun t => t.x = s.x + 1 ∧ t.flags = flagsNZ s.flags (s.x + 1) ∧
      t.a = s.a ∧ t.y = s.y ∧ t.sp = s.sp ∧ t.history = .read s.pc s.cycles :: s.history ∧
      SameMemory s t ∧ SameControl s t) ∧
    Completes .iny s (fun t => t.y = s.y + 1 ∧ t.flags = flagsNZ s.flags (s.y + 1) ∧
      t.a = s.a ∧ t.x = s.x ∧ t.sp = s.sp ∧ t.history = .read s.pc s.cycles :: s.history ∧
      SameMemory s t ∧ SameControl s t) ∧
    Completes .dex s (fun t => t.x = s.x - 1 ∧ t.flags = flagsNZ s.flags (s.x - 1) ∧
      t.a = s.a ∧ t.y = s.y ∧ t.sp = s.sp ∧ t.history = .read s.pc s.cycles :: s.history ∧
      SameMemory s t ∧ SameControl s t) ∧
    Completes .dey s (fun t => t.y = s.y - 1 ∧ t.flags = flagsNZ s.flags (s.y - 1) ∧
      t.a = s.a ∧ t.x = s.x ∧ t.sp = s.sp ∧ t.history = .read s.pc s.cycles :: s.history ∧
      SameMemory s t ∧ SameControl s t)

/-! ## Logic, shifts, bits -/

/-- R270 to R272: AND, ORA and EOR. -/
def Obligations.LogicalOperations : Prop :=
  ∀ (m : ReadMode) (s : State),
    let v := operandByte m s
    let result (r : Byte) (t : State) : Prop :=
      t.a = r ∧ t.flags = flagsNZ s.flags r ∧ t.x = s.x ∧ t.y = s.y ∧ t.sp = s.sp ∧
        t.history = historyAfter s (operandReads m s) ∧ SameMemory s t ∧ SameControl s t
    Completes (.and m) s (result (s.a &&& v)) ∧ Completes (.ora m) s (result (s.a ||| v)) ∧
    Completes (.eor m) s (result (s.a ^^^ v))

/-- R273: BIT; the immediate form writes Z only. -/
def Obligations.BitTest : Prop :=
  ∀ (m : ReadMode) (s : State),
    let v := operandByte m s
    let z := (s.a &&& v) == 0
    Completes (.bit m) s (fun t =>
      t.flags = (if m = .imm then { s.flags with z := z }
        else { s.flags with z := z, n := v.getLsbD 7, v := v.getLsbD 6 }) ∧
      t.history = historyAfter s (operandReads m s) ∧ SameRegisters s t ∧ SameMemory s t ∧ SameControl s t)

/-- R274 to R277, R147: the shifts and rotates, of memory and of the accumulator. -/
def Obligations.ShiftsAndRotates : Prop :=
  ∀ s : State,
    let c0 : Byte := if s.flags.c then 0x01 else 0x00
    let c7 : Byte := if s.flags.c then 0x80 else 0x00
    (∀ m : AddrMode, Memory.wf s.mem = true →
      let old := oldByte m s
      let shifted (new : Byte) (out : Bool) (t : State) : Prop :=
        StoresAt (storeAddr m s) new s t ∧ t.flags = { flagsNZ s.flags new with c := out } ∧
          SameRegisters s t ∧ SameControl s t
      Completes (.asl (.mem m)) s (shifted (old <<< 1) (old.getLsbD 7)) ∧
      Completes (.lsr (.mem m)) s (shifted (old >>> 1) (old.getLsbD 0)) ∧
      Completes (.rol (.mem m)) s (shifted ((old <<< 1) ||| c0) (old.getLsbD 7)) ∧
      Completes (.ror (.mem m)) s (shifted ((old >>> 1) ||| c7) (old.getLsbD 0))) ∧
    (let shifted (new : Byte) (out : Bool) (t : State) : Prop :=
      t.a = new ∧ t.flags = { flagsNZ s.flags new with c := out } ∧
        t.x = s.x ∧ t.y = s.y ∧ t.sp = s.sp ∧ t.history = .read s.pc s.cycles :: s.history ∧
        SameMemory s t ∧ SameControl s t
    Completes (.asl .acc) s (shifted (s.a <<< 1) (s.a.getLsbD 7)) ∧
    Completes (.lsr .acc) s (shifted (s.a >>> 1) (s.a.getLsbD 0)) ∧
    Completes (.rol .acc) s (shifted ((s.a <<< 1) ||| c0) (s.a.getLsbD 7)) ∧
    Completes (.ror .acc) s (shifted ((s.a >>> 1) ||| c7) (s.a.getLsbD 0)))

/-- R278, R279: TSB and TRB test the old byte and write Z only. -/
def Obligations.TestAndSetOrResetBits : Prop :=
  ∀ (m : AddrMode) (s : State), Memory.wf s.mem = true →
    let old := oldByte m s
    let flags := { s.flags with z := (s.a &&& old) == 0 }
    Completes (.tsb m) s (fun t => StoresAt (storeAddr m s) (old ||| s.a) s t ∧ t.flags = flags ∧
      SameRegisters s t ∧ SameControl s t) ∧
    Completes (.trb m) s (fun t => StoresAt (storeAddr m s) (old &&& ~~~s.a) s t ∧ t.flags = flags ∧
      SameRegisters s t ∧ SameControl s t)

/-- R280, R281: RMBn clears and SMBn sets bit n of the zero-page byte, and writes no flag (RMB0 to RMB7, SMB0 to SMB7). -/
def Obligations.ResetAndSetMemoryBits : Prop :=
  ∀ s : State, Memory.wf s.mem = true →
    let old := oldByte .zp s
    let bitIs (n : Nat) (value : Bool) (t : State) : Prop :=
      (∃ new : Byte, StoresAt (storeAddr .zp s) new s t ∧
        ∀ k : Nat, k < 8 → new.getLsbD k = if k = n then value else old.getLsbD k) ∧
      t.flags = s.flags ∧ SameRegisters s t ∧ SameControl s t
    (Completes .rmb0 s (bitIs 0 false) ∧ Completes .rmb1 s (bitIs 1 false) ∧ Completes .rmb2 s (bitIs 2 false) ∧
      Completes .rmb3 s (bitIs 3 false) ∧ Completes .rmb4 s (bitIs 4 false) ∧ Completes .rmb5 s (bitIs 5 false) ∧
      Completes .rmb6 s (bitIs 6 false) ∧ Completes .rmb7 s (bitIs 7 false)) ∧
    (Completes .smb0 s (bitIs 0 true) ∧ Completes .smb1 s (bitIs 1 true) ∧ Completes .smb2 s (bitIs 2 true) ∧
      Completes .smb3 s (bitIs 3 true) ∧ Completes .smb4 s (bitIs 4 true) ∧ Completes .smb5 s (bitIs 5 true) ∧
      Completes .smb6 s (bitIs 6 true) ∧ Completes .smb7 s (bitIs 7 true))

/-- R460, R151, R155, R158, R162: every read-modify-write instruction reads its target and writes it twice, first the unmodified
value, then the result, in its last three cycles (ASL, LSR, ROL, ROR, INC, DEC on memory, TSB, TRB, RMB0 to RMB7, SMB0 to
SMB7). -/
def Obligations.ReadModifyWriteWritesTwice : Prop :=
  ∀ (i : Instr) (s : State) (m : AddrMode) (f : Byte → Byte), rmwOf i s = some (m, f) →
    let u := address true m s
    let old := oldByte m s
    Completes i s (fun t =>
      t.history = .write u.lat.ea (f old) (u.cycles + 2) :: .write u.lat.ea old (u.cycles + 1) ::
        .read u.lat.ea u.cycles :: u.history)

/-! ## Control transfer -/

/-- R310 to R319, R172: the relative branches (BCC, BCS, BEQ, BNE, BMI, BPL, BVC, BVS, BRA): target, accesses and cycles; nothing
else changes. -/
def Obligations.RelativeBranches : Prop :=
  ∀ (i : Instr) (s : State) (cond : Bool), branchCondition i s.flags = some cond →
    let c := s.cycles
    let next := s.pc + 1
    let target := next + (busAnswer s.pc s).signExtend 16
    let samePage := hiByte target = hiByte next
    let h1 := .read s.pc c :: s.history
    let h2 := .read next (c + 1) :: h1
    Completes i s (fun t =>
      t.pc = (if cond then target else next) ∧
      t.history = (if cond then
          (if samePage then h2 else .read (word (hiByte next) (loByte target)) (c + 2) :: h2) else h1) ∧
      t.cycles = c + (if cond then (if samePage then 2 else 3) else 1) ∧
      SameRegisters s t ∧ t.flags = s.flags ∧ SameMemory s t ∧ SameControl s t)

/-- R326, R327, R173: BBR0 to BBR7 and BBS0 to BBS7: the byte read twice, then the offset; taken on the bit's value. -/
def Obligations.BitBranches : Prop :=
  ∀ (i : Instr) (s : State) (n : Nat) (value : Bool), bitBranch i = some (n, value) →
    let c := s.cycles
    let zp := zeroPage (busAnswer s.pc s)
    let h1 := .read s.pc c :: s.history
    let data := answerAt s 1 h1 zp
    let h3 := .read zp (c + 2) :: .read zp (c + 1) :: h1
    let off := answerAt s 3 h3 (s.pc + 1)
    let next := s.pc + 2
    let h4 := .read (s.pc + 1) (c + 3) :: h3
    let target := next + off.signExtend 16
    let taken := data.getLsbD n = value
    let samePage := hiByte target = hiByte next
    let h5 := .read next (c + 4) :: h4
    Completes i s (fun t =>
      t.pc = (if taken then target else next) ∧
      t.history = (if taken then
          (if samePage then h5 else .read (word (hiByte next) (loByte target)) (c + 5) :: h5) else h4) ∧
      t.cycles = c + (if taken then (if samePage then 5 else 6) else 4) ∧
      SameRegisters s t ∧ t.flags = s.flags ∧ SameMemory s t ∧ SameControl s t)

/-- R320 to R322: the three forms of JMP, both behaviours of the indirect one. -/
def Obligations.Jumps : Prop :=
  ∀ s : State,
    let c := s.cycles
    let lo := busAnswer s.pc s
    let h1 := .read s.pc c :: s.history
    let hi := answerAt s 1 h1 (s.pc + 1)
    let h2 := .read (s.pc + 1) (c + 1) :: h1
    let h3 := .read (s.pc + 1) (c + 2) :: h2
    let jumped (target : Word) (h : List BusEvent) (t : State) : Prop :=
      t.pc = target ∧ t.history = h ∧ SameRegisters s t ∧ t.flags = s.flags ∧ SameMemory s t ∧ SameControl s t
    let viaFixed (p : Word) : State → Prop :=
      jumped (word (answerAt s 4 (.read p (c + 3) :: h3) (p + 1)) (answerAt s 3 h3 p))
        (.read (p + 1) (c + 4) :: .read p (c + 3) :: h3)
    let viaBuggy (p q : Word) : State → Prop :=
      jumped (word (answerAt s 3 (.read p (c + 2) :: h2) q) (answerAt s 2 h2 p))
        (.read q (c + 3) :: .read p (c + 2) :: h2)
    Completes (.jmp .abs) s (jumped (word hi lo) h2) ∧
    (s.cfg.jmpIndFixed = false → Completes (.jmp .ind) s (viaBuggy (word hi lo) (word hi (lo + 1)))) ∧
    (s.cfg.jmpIndFixed = true → Completes (.jmp .ind) s (viaFixed (word hi lo))) ∧
    Completes (.jmp .iax) s (viaFixed (word hi lo + zext16 s.x))

/-- R323: JSR pushes its address + 2, high byte first, reads the target's high byte after the pushes, and fires `call`. -/
def Obligations.JumpToSubroutine : Prop :=
  ∀ s : State, Memory.wf s.mem = true →
    let c := s.cycles
    let ret := s.pc + 1
    let h4 := .write (stackAddr (s.sp - 1)) (loByte ret) (c + 3) :: .write (stackAddr s.sp) (hiByte ret) (c + 2) ::
      .read (stackAddr s.sp) (c + 1) :: .read s.pc c :: s.history
    Completes .jsr s (fun t =>
      t.pc = word (if s.isRam ret then byteAt t ret else Config.busRead h4 ret (c + 4)) (busAnswer s.pc s) ∧
      t.history = .hook .call :: .read ret (c + 4) :: h4 ∧
      t.sp = s.sp - 2 ∧ t.a = s.a ∧ t.x = s.x ∧ t.y = s.y ∧ t.flags = s.flags ∧ SameControl s t ∧
      (∀ n : Nat, n ≠ (stackAddr s.sp).toNat → n ≠ (stackAddr (s.sp - 1)).toNat →
        Memory.get t.mem n = Memory.get s.mem n) ∧
      (s.isRam (stackAddr s.sp) = true → byteAt t (stackAddr s.sp) = hiByte ret) ∧
      (s.isRam (stackAddr (s.sp - 1)) = true → byteAt t (stackAddr (s.sp - 1)) = loByte ret))

/-- R324: RTS pulls the low byte, then the high byte, goes to the word + 1, and fires `return`. -/
def Obligations.ReturnFromSubroutine : Prop :=
  ∀ s : State,
    let c := s.cycles
    let h2 := .read (stackAddr s.sp) (c + 1) :: .read s.pc c :: s.history
    let lo := answerAt s 2 h2 (stackAddr (s.sp + 1))
    let h3 := .read (stackAddr (s.sp + 1)) (c + 2) :: h2
    let hi := answerAt s 3 h3 (stackAddr (s.sp + 2))
    let h4 := .read (stackAddr (s.sp + 2)) (c + 3) :: h3
    Completes .rts s (fun t =>
      t.pc = word hi lo + 1 ∧ t.history = .hook .ret :: .read (word hi lo) (c + 4) :: h4 ∧
      t.sp = s.sp + 2 ∧ t.a = s.a ∧ t.x = s.x ∧ t.y = s.y ∧ t.flags = s.flags ∧ SameMemory s t ∧ SameControl s t)

/-- R325, R40, R415: RTI pulls the status byte (bits 5 and 4 discarded), PC low and PC high, adds nothing, and fires `return`. -/
def Obligations.ReturnFromInterrupt : Prop :=
  ∀ s : State,
    let c := s.cycles
    let h2 := .read (stackAddr s.sp) (c + 1) :: .read s.pc c :: s.history
    let p := answerAt s 2 h2 (stackAddr (s.sp + 1))
    let h3 := .read (stackAddr (s.sp + 1)) (c + 2) :: h2
    let lo := answerAt s 3 h3 (stackAddr (s.sp + 2))
    let h4 := .read (stackAddr (s.sp + 2)) (c + 3) :: h3
    let hi := answerAt s 4 h4 (stackAddr (s.sp + 3))
    Completes .rti s (fun t =>
      t.pc = word hi lo ∧ t.history = .hook .ret :: .read (stackAddr (s.sp + 3)) (c + 4) :: h4 ∧
      t.flags = { n := p.getLsbD 7, v := p.getLsbD 6, d := p.getLsbD 3, i := p.getLsbD 2, z := p.getLsbD 1, c := p.getLsbD 0 } ∧
      t.sp = s.sp + 3 ∧ t.a = s.a ∧ t.x = s.x ∧ t.y = s.y ∧ SameMemory s t ∧ SameControl s t)

/-- R330: BRK skips its signature byte, pushes its address + 2 and the status byte with bits 5 and 4 set, sets I, clears D on both
variants, goes through 0xFFFE and fires `debug`. -/
def Obligations.BreakSequence : Prop :=
  ∀ s : State, Memory.wf s.mem = true →
    let c := s.cycles
    let ret := s.pc + 1
    let status := statusByte s.flags ||| 0x30
    let h4 := .write (stackAddr (s.sp - 2)) status (c + 3) :: .write (stackAddr (s.sp - 1)) (loByte ret) (c + 2) ::
      .write (stackAddr s.sp) (hiByte ret) (c + 1) :: .read s.pc c :: s.history
    let h5 := .read 0xFFFE (c + 4) :: h4
    Completes .brk s (fun t =>
      t.pc = word (answerAt s 5 h5 0xFFFF) (answerAt s 4 h4 0xFFFE) ∧
      t.history = .hook .debug :: .read 0xFFFF (c + 5) :: h5 ∧
      t.flags = { s.flags with i := true, d := false } ∧
      t.sp = s.sp - 3 ∧ t.a = s.a ∧ t.x = s.x ∧ t.y = s.y ∧ SameControl s t ∧
      (∀ n : Nat, n ≠ (stackAddr s.sp).toNat → n ≠ (stackAddr (s.sp - 1)).toNat → n ≠ (stackAddr (s.sp - 2)).toNat →
        Memory.get t.mem n = Memory.get s.mem n) ∧
      (s.isRam (stackAddr s.sp) = true → byteAt t (stackAddr s.sp) = hiByte ret) ∧
      (s.isRam (stackAddr (s.sp - 1)) = true → byteAt t (stackAddr (s.sp - 1)) = loByte ret) ∧
      (s.isRam (stackAddr (s.sp - 2)) = true → byteAt t (stackAddr (s.sp - 2)) = status))

/-! ## Stack, flags, NOPs, the stub -/

/-- R350, R352 to R355: PHA, PHX, PHY and PHP. -/
def Obligations.Pushes : Prop :=
  ∀ s : State, Memory.wf s.mem = true →
    let pushed (v : Byte) (t : State) : Prop :=
      StoresAt (stackAddr s.sp) v s t ∧ t.sp = s.sp - 1 ∧
        t.history = .write (stackAddr s.sp) v (s.cycles + 1) :: .read s.pc s.cycles :: s.history ∧
        t.pc = s.pc ∧ t.cycles = s.cycles + 2 ∧ t.a = s.a ∧ t.x = s.x ∧ t.y = s.y ∧ t.flags = s.flags ∧ SameControl s t
    Completes .pha s (pushed s.a) ∧ Completes .phx s (pushed s.x) ∧ Completes .phy s (pushed s.y) ∧
    Completes .php s (pushed (statusByte s.flags ||| 0x30))

/-- R351, R356 to R359: PLA, PLX, PLY and PLP. -/
def Obligations.Pulls : Prop :=
  ∀ s : State,
    let c := s.cycles
    let h2 := .read (stackAddr s.sp) (c + 1) :: .read s.pc c :: s.history
    let v := answerAt s 2 h2 (stackAddr (s.sp + 1))
    let pulled (t : State) : Prop :=
      t.sp = s.sp + 1 ∧ t.history = .read (stackAddr (s.sp + 1)) (c + 2) :: h2 ∧ t.pc = s.pc ∧ t.cycles = c + 3 ∧
        SameMemory s t ∧ SameControl s t
    Completes .pla s (fun t => t.a = v ∧ t.x = s.x ∧ t.y = s.y ∧ t.flags = flagsNZ s.flags v ∧ pulled t) ∧
    Completes .plx s (fun t => t.a = s.a ∧ t.x = v ∧ t.y = s.y ∧ t.flags = flagsNZ s.flags v ∧ pulled t) ∧
    Completes .ply s (fun t => t.a = s.a ∧ t.x = s.x ∧ t.y = v ∧ t.flags = flagsNZ s.flags v ∧ pulled t) ∧
    Completes .plp s (fun t => t.a = s.a ∧ t.x = s.x ∧ t.y = s.y ∧
      t.flags = { n := v.getLsbD 7, v := v.getLsbD 6, d := v.getLsbD 3, i := v.getLsbD 2, z := v.getLsbD 1, c := v.getLsbD 0 } ∧
      pulled t)

/-- R360 to R366: CLC, SEC, CLI, SEI, CLD, SED and CLV change their flag, and nothing else. -/
def Obligations.FlagInstructions : Prop :=
  ∀ (i : Instr) (s : State) (f : Flags → Flags), flagEffect i = some f →
    Completes i s (fun t => t.flags = f s.flags ∧ t.history = .read s.pc s.cycles :: s.history ∧
      SameRegisters s t ∧ SameMemory s t ∧ SameControl s t)

/-- R370 to R376: every NOP makes exactly the reads of its form, advances PC past its bytes, and changes nothing else. -/
def Obligations.NoOperations : Prop :=
  ∀ (f : NopForm) (s : State),
    let c := s.cycles
    let lo := busAnswer s.pc s
    let h1 := .read s.pc c :: s.history
    let hi := answerAt s 1 h1 (s.pc + 1)
    let ad := word hi lo
    let h2 := .read (s.pc + 1) (c + 1) :: h1
    Completes (.nop f) s (fun t =>
      t.history = (match f with
        | .imp => h1
        | .imp1 _ => s.history
        | .imm _ => h1
        | .zp => .read (zeroPage lo) (c + 1) :: h1
        | .zpx _ => .read (zeroPage (lo + s.x)) (c + 2) :: .read (zeroPage lo) (c + 1) :: h1
        | .abs _ => .read ad (c + 2) :: h2
        | .abs8 => .read ad (c + 6) :: .read ad (c + 5) :: .read ad (c + 4) :: .read ad (c + 3) :: .read ad (c + 2) :: h2) ∧
      t.pc = s.pc + BitVec.ofNat 16 (Instr.nop f).format.operandBytes ∧
      SameRegisters s t ∧ t.flags = s.flags ∧ SameMemory s t ∧ SameControl s t)

/-- R385: the NMOS illegal-opcode stub: the mark, PC past `P_ILLEGAL_LEN`, idle cycles, no access, and nothing else. -/
def Obligations.IllegalOpcodeStub : Prop :=
  ∀ (op : Byte) (s : State),
    let i := Instr.illegal op
    Completes i s (fun t =>
      t.illegalSeen = true ∧ t.pc + 1 = s.pc + BitVec.ofNat 16 (i.byteLength s.cfg) ∧
      t.cycles + 1 = s.cycles + i.baseCycles s.cfg ∧ t.history = s.history ∧
      SameRegisters s t ∧ t.flags = s.flags ∧ SameMemory s t ∧
      t.opcode = s.opcode ∧ t.pendingNMI = s.pendingNMI ∧ t.pendingIRQ = s.pendingIRQ ∧ t.cfg = s.cfg ∧ t.t = 0)

/-! ## The host's side -/

/-- R450, R451: reset, for every draw of the registers it leaves to chance. That `opcode` stays as it was is the model's choice,
where the spec leaves it unspecified and unread (R50, R59; log 24). -/
def Obligations.HostReset : Prop :=
  ∀ (d : ResetDraws) (s : State), s.t = 0 →
    let c := s.cycles
    let h1 := .read 0xFFFC c :: s.history
    ∃ t, hostReset d s = .next t ∧
      t.pc = word (answerAt s 1 h1 0xFFFD) (answerAt s 0 s.history 0xFFFC) ∧
      t.history = .read 0xFFFD (c + 1) :: h1 ∧ t.cycles = c + 2 ∧ t.t = 0 ∧
      t.pendingNMI = false ∧ t.pendingIRQ = false ∧
      t.a = d.a ∧ t.x = d.x ∧ t.y = d.y ∧ t.sp = d.sp ∧ t.flags = d.flags ∧
      t.opcode = s.opcode ∧ t.illegalSeen = s.illegalSeen ∧ t.cfg = s.cfg ∧ SameMemory s t

/-- R57, R58, R462: a snapshot restored gives back every field it holds, whatever state it is restored into; inside an instruction
neither is admitted. -/
def Obligations.SnapshotRoundTrip : Prop :=
  ∀ (V : Type) (vstack : V) (s u : State),
    (s.t = 0 → u.t = 0 → ∃ q t, getState vstack s = .next q ∧ setState q u = .next t ∧ getState vstack t = .next q ∧
      q.vstack = vstack ∧ t.pc = s.pc ∧ t.sp = s.sp ∧ t.a = s.a ∧ t.x = s.x ∧ t.y = s.y ∧ t.flags = s.flags ∧ t.t = s.t ∧
      t.cycles = s.cycles ∧ t.pendingNMI = s.pendingNMI ∧ t.pendingIRQ = s.pendingIRQ ∧ t.opcode = s.opcode) ∧
    (s.t ≠ 0 → getState vstack s = .refused .midInstruction) ∧
    (∀ q : Snapshot V, q.t ≠ 0 ∨ u.t ≠ 0 → setState q u = .refused .midInstruction)

/-- R470, R175: `advanceClock` runs whole instructions while the cycles consumed are below the budget and no stop condition holds:
it ends after `n` steps, at a boundary where the budget is used up or where, after an instruction, the stop condition holds; at
every boundary before, the budget was not used up and the condition did not hold. -/
def Obligations.AdvanceClockRunsUntilBudgetOrStop : Prop :=
  ∀ (stop : State → Bool) (budget : Nat) (s : State), s.t = 0 →
    ∃ n t, advanceClock stop budget s = .next t ∧ stepTimes n s = .next t ∧ t.t = 0 ∧
      (s.cycles + budget ≤ t.cycles ∨ (0 < n ∧ stop t = true)) ∧
      ∀ k, k < n → ∃ u, stepTimes k s = .next u ∧ u.cycles < s.cycles + budget ∧ (0 < k → stop u = false)
end

