-- ==== Sys2Proof/Laws/State.lean ====
section
/-! SUPPORT. One lemma per field per update of the state, each true by rfl, so that no proof unfolds a record update. -/

namespace Sys2Proof.Machine

@[simp] theorem readCycle_pc (addr : Word) (s : State) : (readCycle addr s).pc = s.pc := rfl
@[simp] theorem readCycle_sp (addr : Word) (s : State) : (readCycle addr s).sp = s.sp := rfl
@[simp] theorem readCycle_a (addr : Word) (s : State) : (readCycle addr s).a = s.a := rfl
@[simp] theorem readCycle_x (addr : Word) (s : State) : (readCycle addr s).x = s.x := rfl
@[simp] theorem readCycle_y (addr : Word) (s : State) : (readCycle addr s).y = s.y := rfl
@[simp] theorem readCycle_flags (addr : Word) (s : State) : (readCycle addr s).flags = s.flags := rfl
@[simp] theorem readCycle_t (addr : Word) (s : State) : (readCycle addr s).t = s.t + 1 := rfl
@[simp] theorem readCycle_opcode (addr : Word) (s : State) : (readCycle addr s).opcode = s.opcode := rfl
@[simp] theorem readCycle_cycles (addr : Word) (s : State) : (readCycle addr s).cycles = s.cycles + 1 := rfl
@[simp] theorem readCycle_pendingNMI (addr : Word) (s : State) : (readCycle addr s).pendingNMI = s.pendingNMI := rfl
@[simp] theorem readCycle_pendingIRQ (addr : Word) (s : State) : (readCycle addr s).pendingIRQ = s.pendingIRQ := rfl
@[simp] theorem readCycle_lat (addr : Word) (s : State) : (readCycle addr s).lat = s.lat := rfl
@[simp] theorem readCycle_illegalSeen (addr : Word) (s : State) : (readCycle addr s).illegalSeen = s.illegalSeen := rfl
@[simp] theorem readCycle_history (addr : Word) (s : State) : (readCycle addr s).history = .read addr s.cycles :: s.history := rfl
@[simp] theorem readCycle_mem (addr : Word) (s : State) : (readCycle addr s).mem = s.mem := rfl
@[simp] theorem readCycle_cfg (addr : Word) (s : State) : (readCycle addr s).cfg = s.cfg := rfl

@[simp] theorem dummyRead_pc (addr : Word) (s : State) : (dummyRead addr s).pc = s.pc := rfl
@[simp] theorem dummyRead_sp (addr : Word) (s : State) : (dummyRead addr s).sp = s.sp := rfl
@[simp] theorem dummyRead_a (addr : Word) (s : State) : (dummyRead addr s).a = s.a := rfl
@[simp] theorem dummyRead_x (addr : Word) (s : State) : (dummyRead addr s).x = s.x := rfl
@[simp] theorem dummyRead_y (addr : Word) (s : State) : (dummyRead addr s).y = s.y := rfl
@[simp] theorem dummyRead_flags (addr : Word) (s : State) : (dummyRead addr s).flags = s.flags := rfl
@[simp] theorem dummyRead_t (addr : Word) (s : State) : (dummyRead addr s).t = s.t + 1 := rfl
@[simp] theorem dummyRead_opcode (addr : Word) (s : State) : (dummyRead addr s).opcode = s.opcode := rfl
@[simp] theorem dummyRead_cycles (addr : Word) (s : State) : (dummyRead addr s).cycles = s.cycles + 1 := rfl
@[simp] theorem dummyRead_pendingNMI (addr : Word) (s : State) : (dummyRead addr s).pendingNMI = s.pendingNMI := rfl
@[simp] theorem dummyRead_pendingIRQ (addr : Word) (s : State) : (dummyRead addr s).pendingIRQ = s.pendingIRQ := rfl
@[simp] theorem dummyRead_lat (addr : Word) (s : State) : (dummyRead addr s).lat = s.lat := rfl
@[simp] theorem dummyRead_illegalSeen (addr : Word) (s : State) : (dummyRead addr s).illegalSeen = s.illegalSeen := rfl
@[simp] theorem dummyRead_history (addr : Word) (s : State) : (dummyRead addr s).history = .read addr s.cycles :: s.history := rfl
@[simp] theorem dummyRead_mem (addr : Word) (s : State) : (dummyRead addr s).mem = s.mem := rfl
@[simp] theorem dummyRead_cfg (addr : Word) (s : State) : (dummyRead addr s).cfg = s.cfg := rfl

@[simp] theorem implied_pc (s : State) : (implied s).pc = s.pc := rfl
@[simp] theorem implied_sp (s : State) : (implied s).sp = s.sp := rfl
@[simp] theorem implied_a (s : State) : (implied s).a = s.a := rfl
@[simp] theorem implied_x (s : State) : (implied s).x = s.x := rfl
@[simp] theorem implied_y (s : State) : (implied s).y = s.y := rfl
@[simp] theorem implied_flags (s : State) : (implied s).flags = s.flags := rfl
@[simp] theorem implied_t (s : State) : (implied s).t = s.t + 1 := rfl
@[simp] theorem implied_opcode (s : State) : (implied s).opcode = s.opcode := rfl
@[simp] theorem implied_cycles (s : State) : (implied s).cycles = s.cycles + 1 := rfl
@[simp] theorem implied_pendingNMI (s : State) : (implied s).pendingNMI = s.pendingNMI := rfl
@[simp] theorem implied_pendingIRQ (s : State) : (implied s).pendingIRQ = s.pendingIRQ := rfl
@[simp] theorem implied_lat (s : State) : (implied s).lat = s.lat := rfl
@[simp] theorem implied_illegalSeen (s : State) : (implied s).illegalSeen = s.illegalSeen := rfl
@[simp] theorem implied_history (s : State) : (implied s).history = .read s.pc s.cycles :: s.history := rfl
@[simp] theorem implied_mem (s : State) : (implied s).mem = s.mem := rfl
@[simp] theorem implied_cfg (s : State) : (implied s).cfg = s.cfg := rfl

@[simp] theorem writeCycle_pc (addr : Word) (v : Byte) (s : State) : (writeCycle addr v s).pc = s.pc := rfl
@[simp] theorem writeCycle_sp (addr : Word) (v : Byte) (s : State) : (writeCycle addr v s).sp = s.sp := rfl
@[simp] theorem writeCycle_a (addr : Word) (v : Byte) (s : State) : (writeCycle addr v s).a = s.a := rfl
@[simp] theorem writeCycle_x (addr : Word) (v : Byte) (s : State) : (writeCycle addr v s).x = s.x := rfl
@[simp] theorem writeCycle_y (addr : Word) (v : Byte) (s : State) : (writeCycle addr v s).y = s.y := rfl
@[simp] theorem writeCycle_flags (addr : Word) (v : Byte) (s : State) : (writeCycle addr v s).flags = s.flags := rfl
@[simp] theorem writeCycle_t (addr : Word) (v : Byte) (s : State) : (writeCycle addr v s).t = s.t + 1 := rfl
@[simp] theorem writeCycle_opcode (addr : Word) (v : Byte) (s : State) : (writeCycle addr v s).opcode = s.opcode := rfl
@[simp] theorem writeCycle_cycles (addr : Word) (v : Byte) (s : State) : (writeCycle addr v s).cycles = s.cycles + 1 := rfl
@[simp] theorem writeCycle_pendingNMI (addr : Word) (v : Byte) (s : State) : (writeCycle addr v s).pendingNMI = s.pendingNMI := rfl
@[simp] theorem writeCycle_pendingIRQ (addr : Word) (v : Byte) (s : State) : (writeCycle addr v s).pendingIRQ = s.pendingIRQ := rfl
@[simp] theorem writeCycle_lat (addr : Word) (v : Byte) (s : State) : (writeCycle addr v s).lat = s.lat := rfl
@[simp] theorem writeCycle_illegalSeen (addr : Word) (v : Byte) (s : State) : (writeCycle addr v s).illegalSeen = s.illegalSeen := rfl
@[simp] theorem writeCycle_history (addr : Word) (v : Byte) (s : State) : (writeCycle addr v s).history = .write addr v s.cycles :: s.history := rfl
@[simp] theorem writeCycle_mem (addr : Word) (v : Byte) (s : State) :
    (writeCycle addr v s).mem = if s.isRam addr then Memory.set s.mem addr.toNat v else s.mem := rfl
@[simp] theorem writeCycle_cfg (addr : Word) (v : Byte) (s : State) : (writeCycle addr v s).cfg = s.cfg := rfl

@[simp] theorem push_pc (v : Byte) (s : State) : (push v s).pc = s.pc := rfl
@[simp] theorem push_sp (v : Byte) (s : State) : (push v s).sp = s.sp - 1 := rfl
@[simp] theorem push_a (v : Byte) (s : State) : (push v s).a = s.a := rfl
@[simp] theorem push_x (v : Byte) (s : State) : (push v s).x = s.x := rfl
@[simp] theorem push_y (v : Byte) (s : State) : (push v s).y = s.y := rfl
@[simp] theorem push_flags (v : Byte) (s : State) : (push v s).flags = s.flags := rfl
@[simp] theorem push_t (v : Byte) (s : State) : (push v s).t = s.t + 1 := rfl
@[simp] theorem push_opcode (v : Byte) (s : State) : (push v s).opcode = s.opcode := rfl
@[simp] theorem push_cycles (v : Byte) (s : State) : (push v s).cycles = s.cycles + 1 := rfl
@[simp] theorem push_pendingNMI (v : Byte) (s : State) : (push v s).pendingNMI = s.pendingNMI := rfl
@[simp] theorem push_pendingIRQ (v : Byte) (s : State) : (push v s).pendingIRQ = s.pendingIRQ := rfl
@[simp] theorem push_lat (v : Byte) (s : State) : (push v s).lat = s.lat := rfl
@[simp] theorem push_illegalSeen (v : Byte) (s : State) : (push v s).illegalSeen = s.illegalSeen := rfl
@[simp] theorem push_history (v : Byte) (s : State) : (push v s).history = .write (stackAddr s.sp) v s.cycles :: s.history := rfl
@[simp] theorem push_mem (v : Byte) (s : State) :
    (push v s).mem = if s.isRam (stackAddr s.sp) then Memory.set s.mem (stackAddr s.sp).toNat v else s.mem := rfl
@[simp] theorem push_cfg (v : Byte) (s : State) : (push v s).cfg = s.cfg := rfl

@[simp] theorem setADL_pc (b : Byte) (s : State) : (setADL b s).pc = s.pc := rfl
@[simp] theorem setADL_sp (b : Byte) (s : State) : (setADL b s).sp = s.sp := rfl
@[simp] theorem setADL_a (b : Byte) (s : State) : (setADL b s).a = s.a := rfl
@[simp] theorem setADL_x (b : Byte) (s : State) : (setADL b s).x = s.x := rfl
@[simp] theorem setADL_y (b : Byte) (s : State) : (setADL b s).y = s.y := rfl
@[simp] theorem setADL_flags (b : Byte) (s : State) : (setADL b s).flags = s.flags := rfl
@[simp] theorem setADL_t (b : Byte) (s : State) : (setADL b s).t = s.t := rfl
@[simp] theorem setADL_opcode (b : Byte) (s : State) : (setADL b s).opcode = s.opcode := rfl
@[simp] theorem setADL_cycles (b : Byte) (s : State) : (setADL b s).cycles = s.cycles := rfl
@[simp] theorem setADL_pendingNMI (b : Byte) (s : State) : (setADL b s).pendingNMI = s.pendingNMI := rfl
@[simp] theorem setADL_pendingIRQ (b : Byte) (s : State) : (setADL b s).pendingIRQ = s.pendingIRQ := rfl
@[simp] theorem setADL_lat (b : Byte) (s : State) : (setADL b s).lat = { s.lat with adl := b } := rfl
@[simp] theorem setADL_illegalSeen (b : Byte) (s : State) : (setADL b s).illegalSeen = s.illegalSeen := rfl
@[simp] theorem setADL_history (b : Byte) (s : State) : (setADL b s).history = s.history := rfl
@[simp] theorem setADL_mem (b : Byte) (s : State) : (setADL b s).mem = s.mem := rfl
@[simp] theorem setADL_cfg (b : Byte) (s : State) : (setADL b s).cfg = s.cfg := rfl

@[simp] theorem setADH_pc (b : Byte) (s : State) : (setADH b s).pc = s.pc := rfl
@[simp] theorem setADH_sp (b : Byte) (s : State) : (setADH b s).sp = s.sp := rfl
@[simp] theorem setADH_a (b : Byte) (s : State) : (setADH b s).a = s.a := rfl
@[simp] theorem setADH_x (b : Byte) (s : State) : (setADH b s).x = s.x := rfl
@[simp] theorem setADH_y (b : Byte) (s : State) : (setADH b s).y = s.y := rfl
@[simp] theorem setADH_flags (b : Byte) (s : State) : (setADH b s).flags = s.flags := rfl
@[simp] theorem setADH_t (b : Byte) (s : State) : (setADH b s).t = s.t := rfl
@[simp] theorem setADH_opcode (b : Byte) (s : State) : (setADH b s).opcode = s.opcode := rfl
@[simp] theorem setADH_cycles (b : Byte) (s : State) : (setADH b s).cycles = s.cycles := rfl
@[simp] theorem setADH_pendingNMI (b : Byte) (s : State) : (setADH b s).pendingNMI = s.pendingNMI := rfl
@[simp] theorem setADH_pendingIRQ (b : Byte) (s : State) : (setADH b s).pendingIRQ = s.pendingIRQ := rfl
@[simp] theorem setADH_lat (b : Byte) (s : State) : (setADH b s).lat = { s.lat with adh := b } := rfl
@[simp] theorem setADH_illegalSeen (b : Byte) (s : State) : (setADH b s).illegalSeen = s.illegalSeen := rfl
@[simp] theorem setADH_history (b : Byte) (s : State) : (setADH b s).history = s.history := rfl
@[simp] theorem setADH_mem (b : Byte) (s : State) : (setADH b s).mem = s.mem := rfl
@[simp] theorem setADH_cfg (b : Byte) (s : State) : (setADH b s).cfg = s.cfg := rfl

@[simp] theorem setBAL_pc (b : Byte) (s : State) : (setBAL b s).pc = s.pc := rfl
@[simp] theorem setBAL_sp (b : Byte) (s : State) : (setBAL b s).sp = s.sp := rfl
@[simp] theorem setBAL_a (b : Byte) (s : State) : (setBAL b s).a = s.a := rfl
@[simp] theorem setBAL_x (b : Byte) (s : State) : (setBAL b s).x = s.x := rfl
@[simp] theorem setBAL_y (b : Byte) (s : State) : (setBAL b s).y = s.y := rfl
@[simp] theorem setBAL_flags (b : Byte) (s : State) : (setBAL b s).flags = s.flags := rfl
@[simp] theorem setBAL_t (b : Byte) (s : State) : (setBAL b s).t = s.t := rfl
@[simp] theorem setBAL_opcode (b : Byte) (s : State) : (setBAL b s).opcode = s.opcode := rfl
@[simp] theorem setBAL_cycles (b : Byte) (s : State) : (setBAL b s).cycles = s.cycles := rfl
@[simp] theorem setBAL_pendingNMI (b : Byte) (s : State) : (setBAL b s).pendingNMI = s.pendingNMI := rfl
@[simp] theorem setBAL_pendingIRQ (b : Byte) (s : State) : (setBAL b s).pendingIRQ = s.pendingIRQ := rfl
@[simp] theorem setBAL_lat (b : Byte) (s : State) : (setBAL b s).lat = { s.lat with bal := b } := rfl
@[simp] theorem setBAL_illegalSeen (b : Byte) (s : State) : (setBAL b s).illegalSeen = s.illegalSeen := rfl
@[simp] theorem setBAL_history (b : Byte) (s : State) : (setBAL b s).history = s.history := rfl
@[simp] theorem setBAL_mem (b : Byte) (s : State) : (setBAL b s).mem = s.mem := rfl
@[simp] theorem setBAL_cfg (b : Byte) (s : State) : (setBAL b s).cfg = s.cfg := rfl

@[simp] theorem setBAH_pc (b : Byte) (s : State) : (setBAH b s).pc = s.pc := rfl
@[simp] theorem setBAH_sp (b : Byte) (s : State) : (setBAH b s).sp = s.sp := rfl
@[simp] theorem setBAH_a (b : Byte) (s : State) : (setBAH b s).a = s.a := rfl
@[simp] theorem setBAH_x (b : Byte) (s : State) : (setBAH b s).x = s.x := rfl
@[simp] theorem setBAH_y (b : Byte) (s : State) : (setBAH b s).y = s.y := rfl
@[simp] theorem setBAH_flags (b : Byte) (s : State) : (setBAH b s).flags = s.flags := rfl
@[simp] theorem setBAH_t (b : Byte) (s : State) : (setBAH b s).t = s.t := rfl
@[simp] theorem setBAH_opcode (b : Byte) (s : State) : (setBAH b s).opcode = s.opcode := rfl
@[simp] theorem setBAH_cycles (b : Byte) (s : State) : (setBAH b s).cycles = s.cycles := rfl
@[simp] theorem setBAH_pendingNMI (b : Byte) (s : State) : (setBAH b s).pendingNMI = s.pendingNMI := rfl
@[simp] theorem setBAH_pendingIRQ (b : Byte) (s : State) : (setBAH b s).pendingIRQ = s.pendingIRQ := rfl
@[simp] theorem setBAH_lat (b : Byte) (s : State) : (setBAH b s).lat = { s.lat with bah := b } := rfl
@[simp] theorem setBAH_illegalSeen (b : Byte) (s : State) : (setBAH b s).illegalSeen = s.illegalSeen := rfl
@[simp] theorem setBAH_history (b : Byte) (s : State) : (setBAH b s).history = s.history := rfl
@[simp] theorem setBAH_mem (b : Byte) (s : State) : (setBAH b s).mem = s.mem := rfl
@[simp] theorem setBAH_cfg (b : Byte) (s : State) : (setBAH b s).cfg = s.cfg := rfl

@[simp] theorem setIAL_pc (b : Byte) (s : State) : (setIAL b s).pc = s.pc := rfl
@[simp] theorem setIAL_sp (b : Byte) (s : State) : (setIAL b s).sp = s.sp := rfl
@[simp] theorem setIAL_a (b : Byte) (s : State) : (setIAL b s).a = s.a := rfl
@[simp] theorem setIAL_x (b : Byte) (s : State) : (setIAL b s).x = s.x := rfl
@[simp] theorem setIAL_y (b : Byte) (s : State) : (setIAL b s).y = s.y := rfl
@[simp] theorem setIAL_flags (b : Byte) (s : State) : (setIAL b s).flags = s.flags := rfl
@[simp] theorem setIAL_t (b : Byte) (s : State) : (setIAL b s).t = s.t := rfl
@[simp] theorem setIAL_opcode (b : Byte) (s : State) : (setIAL b s).opcode = s.opcode := rfl
@[simp] theorem setIAL_cycles (b : Byte) (s : State) : (setIAL b s).cycles = s.cycles := rfl
@[simp] theorem setIAL_pendingNMI (b : Byte) (s : State) : (setIAL b s).pendingNMI = s.pendingNMI := rfl
@[simp] theorem setIAL_pendingIRQ (b : Byte) (s : State) : (setIAL b s).pendingIRQ = s.pendingIRQ := rfl
@[simp] theorem setIAL_lat (b : Byte) (s : State) : (setIAL b s).lat = { s.lat with ial := b } := rfl
@[simp] theorem setIAL_illegalSeen (b : Byte) (s : State) : (setIAL b s).illegalSeen = s.illegalSeen := rfl
@[simp] theorem setIAL_history (b : Byte) (s : State) : (setIAL b s).history = s.history := rfl
@[simp] theorem setIAL_mem (b : Byte) (s : State) : (setIAL b s).mem = s.mem := rfl
@[simp] theorem setIAL_cfg (b : Byte) (s : State) : (setIAL b s).cfg = s.cfg := rfl

@[simp] theorem setIAH_pc (b : Byte) (s : State) : (setIAH b s).pc = s.pc := rfl
@[simp] theorem setIAH_sp (b : Byte) (s : State) : (setIAH b s).sp = s.sp := rfl
@[simp] theorem setIAH_a (b : Byte) (s : State) : (setIAH b s).a = s.a := rfl
@[simp] theorem setIAH_x (b : Byte) (s : State) : (setIAH b s).x = s.x := rfl
@[simp] theorem setIAH_y (b : Byte) (s : State) : (setIAH b s).y = s.y := rfl
@[simp] theorem setIAH_flags (b : Byte) (s : State) : (setIAH b s).flags = s.flags := rfl
@[simp] theorem setIAH_t (b : Byte) (s : State) : (setIAH b s).t = s.t := rfl
@[simp] theorem setIAH_opcode (b : Byte) (s : State) : (setIAH b s).opcode = s.opcode := rfl
@[simp] theorem setIAH_cycles (b : Byte) (s : State) : (setIAH b s).cycles = s.cycles := rfl
@[simp] theorem setIAH_pendingNMI (b : Byte) (s : State) : (setIAH b s).pendingNMI = s.pendingNMI := rfl
@[simp] theorem setIAH_pendingIRQ (b : Byte) (s : State) : (setIAH b s).pendingIRQ = s.pendingIRQ := rfl
@[simp] theorem setIAH_lat (b : Byte) (s : State) : (setIAH b s).lat = { s.lat with iah := b } := rfl
@[simp] theorem setIAH_illegalSeen (b : Byte) (s : State) : (setIAH b s).illegalSeen = s.illegalSeen := rfl
@[simp] theorem setIAH_history (b : Byte) (s : State) : (setIAH b s).history = s.history := rfl
@[simp] theorem setIAH_mem (b : Byte) (s : State) : (setIAH b s).mem = s.mem := rfl
@[simp] theorem setIAH_cfg (b : Byte) (s : State) : (setIAH b s).cfg = s.cfg := rfl

@[simp] theorem setOFF_pc (b : Byte) (s : State) : (setOFF b s).pc = s.pc := rfl
@[simp] theorem setOFF_sp (b : Byte) (s : State) : (setOFF b s).sp = s.sp := rfl
@[simp] theorem setOFF_a (b : Byte) (s : State) : (setOFF b s).a = s.a := rfl
@[simp] theorem setOFF_x (b : Byte) (s : State) : (setOFF b s).x = s.x := rfl
@[simp] theorem setOFF_y (b : Byte) (s : State) : (setOFF b s).y = s.y := rfl
@[simp] theorem setOFF_flags (b : Byte) (s : State) : (setOFF b s).flags = s.flags := rfl
@[simp] theorem setOFF_t (b : Byte) (s : State) : (setOFF b s).t = s.t := rfl
@[simp] theorem setOFF_opcode (b : Byte) (s : State) : (setOFF b s).opcode = s.opcode := rfl
@[simp] theorem setOFF_cycles (b : Byte) (s : State) : (setOFF b s).cycles = s.cycles := rfl
@[simp] theorem setOFF_pendingNMI (b : Byte) (s : State) : (setOFF b s).pendingNMI = s.pendingNMI := rfl
@[simp] theorem setOFF_pendingIRQ (b : Byte) (s : State) : (setOFF b s).pendingIRQ = s.pendingIRQ := rfl
@[simp] theorem setOFF_lat (b : Byte) (s : State) : (setOFF b s).lat = { s.lat with off := b } := rfl
@[simp] theorem setOFF_illegalSeen (b : Byte) (s : State) : (setOFF b s).illegalSeen = s.illegalSeen := rfl
@[simp] theorem setOFF_history (b : Byte) (s : State) : (setOFF b s).history = s.history := rfl
@[simp] theorem setOFF_mem (b : Byte) (s : State) : (setOFF b s).mem = s.mem := rfl
@[simp] theorem setOFF_cfg (b : Byte) (s : State) : (setOFF b s).cfg = s.cfg := rfl

@[simp] theorem setDATA_pc (b : Byte) (s : State) : (setDATA b s).pc = s.pc := rfl
@[simp] theorem setDATA_sp (b : Byte) (s : State) : (setDATA b s).sp = s.sp := rfl
@[simp] theorem setDATA_a (b : Byte) (s : State) : (setDATA b s).a = s.a := rfl
@[simp] theorem setDATA_x (b : Byte) (s : State) : (setDATA b s).x = s.x := rfl
@[simp] theorem setDATA_y (b : Byte) (s : State) : (setDATA b s).y = s.y := rfl
@[simp] theorem setDATA_flags (b : Byte) (s : State) : (setDATA b s).flags = s.flags := rfl
@[simp] theorem setDATA_t (b : Byte) (s : State) : (setDATA b s).t = s.t := rfl
@[simp] theorem setDATA_opcode (b : Byte) (s : State) : (setDATA b s).opcode = s.opcode := rfl
@[simp] theorem setDATA_cycles (b : Byte) (s : State) : (setDATA b s).cycles = s.cycles := rfl
@[simp] theorem setDATA_pendingNMI (b : Byte) (s : State) : (setDATA b s).pendingNMI = s.pendingNMI := rfl
@[simp] theorem setDATA_pendingIRQ (b : Byte) (s : State) : (setDATA b s).pendingIRQ = s.pendingIRQ := rfl
@[simp] theorem setDATA_lat (b : Byte) (s : State) : (setDATA b s).lat = { s.lat with data := b } := rfl
@[simp] theorem setDATA_illegalSeen (b : Byte) (s : State) : (setDATA b s).illegalSeen = s.illegalSeen := rfl
@[simp] theorem setDATA_history (b : Byte) (s : State) : (setDATA b s).history = s.history := rfl
@[simp] theorem setDATA_mem (b : Byte) (s : State) : (setDATA b s).mem = s.mem := rfl
@[simp] theorem setDATA_cfg (b : Byte) (s : State) : (setDATA b s).cfg = s.cfg := rfl

@[simp] theorem setEA_pc (w : Word) (s : State) : (setEA w s).pc = s.pc := rfl
@[simp] theorem setEA_sp (w : Word) (s : State) : (setEA w s).sp = s.sp := rfl
@[simp] theorem setEA_a (w : Word) (s : State) : (setEA w s).a = s.a := rfl
@[simp] theorem setEA_x (w : Word) (s : State) : (setEA w s).x = s.x := rfl
@[simp] theorem setEA_y (w : Word) (s : State) : (setEA w s).y = s.y := rfl
@[simp] theorem setEA_flags (w : Word) (s : State) : (setEA w s).flags = s.flags := rfl
@[simp] theorem setEA_t (w : Word) (s : State) : (setEA w s).t = s.t := rfl
@[simp] theorem setEA_opcode (w : Word) (s : State) : (setEA w s).opcode = s.opcode := rfl
@[simp] theorem setEA_cycles (w : Word) (s : State) : (setEA w s).cycles = s.cycles := rfl
@[simp] theorem setEA_pendingNMI (w : Word) (s : State) : (setEA w s).pendingNMI = s.pendingNMI := rfl
@[simp] theorem setEA_pendingIRQ (w : Word) (s : State) : (setEA w s).pendingIRQ = s.pendingIRQ := rfl
@[simp] theorem setEA_lat (w : Word) (s : State) : (setEA w s).lat = { s.lat with ea := w } := rfl
@[simp] theorem setEA_illegalSeen (w : Word) (s : State) : (setEA w s).illegalSeen = s.illegalSeen := rfl
@[simp] theorem setEA_history (w : Word) (s : State) : (setEA w s).history = s.history := rfl
@[simp] theorem setEA_mem (w : Word) (s : State) : (setEA w s).mem = s.mem := rfl
@[simp] theorem setEA_cfg (w : Word) (s : State) : (setEA w s).cfg = s.cfg := rfl

@[simp] theorem setOpcode_pc (b : Byte) (s : State) : (setOpcode b s).pc = s.pc := rfl
@[simp] theorem setOpcode_sp (b : Byte) (s : State) : (setOpcode b s).sp = s.sp := rfl
@[simp] theorem setOpcode_a (b : Byte) (s : State) : (setOpcode b s).a = s.a := rfl
@[simp] theorem setOpcode_x (b : Byte) (s : State) : (setOpcode b s).x = s.x := rfl
@[simp] theorem setOpcode_y (b : Byte) (s : State) : (setOpcode b s).y = s.y := rfl
@[simp] theorem setOpcode_flags (b : Byte) (s : State) : (setOpcode b s).flags = s.flags := rfl
@[simp] theorem setOpcode_t (b : Byte) (s : State) : (setOpcode b s).t = s.t := rfl
@[simp] theorem setOpcode_opcode (b : Byte) (s : State) : (setOpcode b s).opcode = b := rfl
@[simp] theorem setOpcode_cycles (b : Byte) (s : State) : (setOpcode b s).cycles = s.cycles := rfl
@[simp] theorem setOpcode_pendingNMI (b : Byte) (s : State) : (setOpcode b s).pendingNMI = s.pendingNMI := rfl
@[simp] theorem setOpcode_pendingIRQ (b : Byte) (s : State) : (setOpcode b s).pendingIRQ = s.pendingIRQ := rfl
@[simp] theorem setOpcode_lat (b : Byte) (s : State) : (setOpcode b s).lat = s.lat := rfl
@[simp] theorem setOpcode_illegalSeen (b : Byte) (s : State) : (setOpcode b s).illegalSeen = s.illegalSeen := rfl
@[simp] theorem setOpcode_history (b : Byte) (s : State) : (setOpcode b s).history = s.history := rfl
@[simp] theorem setOpcode_mem (b : Byte) (s : State) : (setOpcode b s).mem = s.mem := rfl
@[simp] theorem setOpcode_cfg (b : Byte) (s : State) : (setOpcode b s).cfg = s.cfg := rfl

@[simp] theorem setA_pc (b : Byte) (s : State) : (setA b s).pc = s.pc := rfl
@[simp] theorem setA_sp (b : Byte) (s : State) : (setA b s).sp = s.sp := rfl
@[simp] theorem setA_a (b : Byte) (s : State) : (setA b s).a = b := rfl
@[simp] theorem setA_x (b : Byte) (s : State) : (setA b s).x = s.x := rfl
@[simp] theorem setA_y (b : Byte) (s : State) : (setA b s).y = s.y := rfl
@[simp] theorem setA_flags (b : Byte) (s : State) : (setA b s).flags = s.flags := rfl
@[simp] theorem setA_t (b : Byte) (s : State) : (setA b s).t = s.t := rfl
@[simp] theorem setA_opcode (b : Byte) (s : State) : (setA b s).opcode = s.opcode := rfl
@[simp] theorem setA_cycles (b : Byte) (s : State) : (setA b s).cycles = s.cycles := rfl
@[simp] theorem setA_pendingNMI (b : Byte) (s : State) : (setA b s).pendingNMI = s.pendingNMI := rfl
@[simp] theorem setA_pendingIRQ (b : Byte) (s : State) : (setA b s).pendingIRQ = s.pendingIRQ := rfl
@[simp] theorem setA_lat (b : Byte) (s : State) : (setA b s).lat = s.lat := rfl
@[simp] theorem setA_illegalSeen (b : Byte) (s : State) : (setA b s).illegalSeen = s.illegalSeen := rfl
@[simp] theorem setA_history (b : Byte) (s : State) : (setA b s).history = s.history := rfl
@[simp] theorem setA_mem (b : Byte) (s : State) : (setA b s).mem = s.mem := rfl
@[simp] theorem setA_cfg (b : Byte) (s : State) : (setA b s).cfg = s.cfg := rfl

@[simp] theorem setX_pc (b : Byte) (s : State) : (setX b s).pc = s.pc := rfl
@[simp] theorem setX_sp (b : Byte) (s : State) : (setX b s).sp = s.sp := rfl
@[simp] theorem setX_a (b : Byte) (s : State) : (setX b s).a = s.a := rfl
@[simp] theorem setX_x (b : Byte) (s : State) : (setX b s).x = b := rfl
@[simp] theorem setX_y (b : Byte) (s : State) : (setX b s).y = s.y := rfl
@[simp] theorem setX_flags (b : Byte) (s : State) : (setX b s).flags = s.flags := rfl
@[simp] theorem setX_t (b : Byte) (s : State) : (setX b s).t = s.t := rfl
@[simp] theorem setX_opcode (b : Byte) (s : State) : (setX b s).opcode = s.opcode := rfl
@[simp] theorem setX_cycles (b : Byte) (s : State) : (setX b s).cycles = s.cycles := rfl
@[simp] theorem setX_pendingNMI (b : Byte) (s : State) : (setX b s).pendingNMI = s.pendingNMI := rfl
@[simp] theorem setX_pendingIRQ (b : Byte) (s : State) : (setX b s).pendingIRQ = s.pendingIRQ := rfl
@[simp] theorem setX_lat (b : Byte) (s : State) : (setX b s).lat = s.lat := rfl
@[simp] theorem setX_illegalSeen (b : Byte) (s : State) : (setX b s).illegalSeen = s.illegalSeen := rfl
@[simp] theorem setX_history (b : Byte) (s : State) : (setX b s).history = s.history := rfl
@[simp] theorem setX_mem (b : Byte) (s : State) : (setX b s).mem = s.mem := rfl
@[simp] theorem setX_cfg (b : Byte) (s : State) : (setX b s).cfg = s.cfg := rfl

@[simp] theorem setY_pc (b : Byte) (s : State) : (setY b s).pc = s.pc := rfl
@[simp] theorem setY_sp (b : Byte) (s : State) : (setY b s).sp = s.sp := rfl
@[simp] theorem setY_a (b : Byte) (s : State) : (setY b s).a = s.a := rfl
@[simp] theorem setY_x (b : Byte) (s : State) : (setY b s).x = s.x := rfl
@[simp] theorem setY_y (b : Byte) (s : State) : (setY b s).y = b := rfl
@[simp] theorem setY_flags (b : Byte) (s : State) : (setY b s).flags = s.flags := rfl
@[simp] theorem setY_t (b : Byte) (s : State) : (setY b s).t = s.t := rfl
@[simp] theorem setY_opcode (b : Byte) (s : State) : (setY b s).opcode = s.opcode := rfl
@[simp] theorem setY_cycles (b : Byte) (s : State) : (setY b s).cycles = s.cycles := rfl
@[simp] theorem setY_pendingNMI (b : Byte) (s : State) : (setY b s).pendingNMI = s.pendingNMI := rfl
@[simp] theorem setY_pendingIRQ (b : Byte) (s : State) : (setY b s).pendingIRQ = s.pendingIRQ := rfl
@[simp] theorem setY_lat (b : Byte) (s : State) : (setY b s).lat = s.lat := rfl
@[simp] theorem setY_illegalSeen (b : Byte) (s : State) : (setY b s).illegalSeen = s.illegalSeen := rfl
@[simp] theorem setY_history (b : Byte) (s : State) : (setY b s).history = s.history := rfl
@[simp] theorem setY_mem (b : Byte) (s : State) : (setY b s).mem = s.mem := rfl
@[simp] theorem setY_cfg (b : Byte) (s : State) : (setY b s).cfg = s.cfg := rfl

@[simp] theorem setSP_pc (b : Byte) (s : State) : (setSP b s).pc = s.pc := rfl
@[simp] theorem setSP_sp (b : Byte) (s : State) : (setSP b s).sp = b := rfl
@[simp] theorem setSP_a (b : Byte) (s : State) : (setSP b s).a = s.a := rfl
@[simp] theorem setSP_x (b : Byte) (s : State) : (setSP b s).x = s.x := rfl
@[simp] theorem setSP_y (b : Byte) (s : State) : (setSP b s).y = s.y := rfl
@[simp] theorem setSP_flags (b : Byte) (s : State) : (setSP b s).flags = s.flags := rfl
@[simp] theorem setSP_t (b : Byte) (s : State) : (setSP b s).t = s.t := rfl
@[simp] theorem setSP_opcode (b : Byte) (s : State) : (setSP b s).opcode = s.opcode := rfl
@[simp] theorem setSP_cycles (b : Byte) (s : State) : (setSP b s).cycles = s.cycles := rfl
@[simp] theorem setSP_pendingNMI (b : Byte) (s : State) : (setSP b s).pendingNMI = s.pendingNMI := rfl
@[simp] theorem setSP_pendingIRQ (b : Byte) (s : State) : (setSP b s).pendingIRQ = s.pendingIRQ := rfl
@[simp] theorem setSP_lat (b : Byte) (s : State) : (setSP b s).lat = s.lat := rfl
@[simp] theorem setSP_illegalSeen (b : Byte) (s : State) : (setSP b s).illegalSeen = s.illegalSeen := rfl
@[simp] theorem setSP_history (b : Byte) (s : State) : (setSP b s).history = s.history := rfl
@[simp] theorem setSP_mem (b : Byte) (s : State) : (setSP b s).mem = s.mem := rfl
@[simp] theorem setSP_cfg (b : Byte) (s : State) : (setSP b s).cfg = s.cfg := rfl

@[simp] theorem setPC_pc (w : Word) (s : State) : (setPC w s).pc = w := rfl
@[simp] theorem setPC_sp (w : Word) (s : State) : (setPC w s).sp = s.sp := rfl
@[simp] theorem setPC_a (w : Word) (s : State) : (setPC w s).a = s.a := rfl
@[simp] theorem setPC_x (w : Word) (s : State) : (setPC w s).x = s.x := rfl
@[simp] theorem setPC_y (w : Word) (s : State) : (setPC w s).y = s.y := rfl
@[simp] theorem setPC_flags (w : Word) (s : State) : (setPC w s).flags = s.flags := rfl
@[simp] theorem setPC_t (w : Word) (s : State) : (setPC w s).t = s.t := rfl
@[simp] theorem setPC_opcode (w : Word) (s : State) : (setPC w s).opcode = s.opcode := rfl
@[simp] theorem setPC_cycles (w : Word) (s : State) : (setPC w s).cycles = s.cycles := rfl
@[simp] theorem setPC_pendingNMI (w : Word) (s : State) : (setPC w s).pendingNMI = s.pendingNMI := rfl
@[simp] theorem setPC_pendingIRQ (w : Word) (s : State) : (setPC w s).pendingIRQ = s.pendingIRQ := rfl
@[simp] theorem setPC_lat (w : Word) (s : State) : (setPC w s).lat = s.lat := rfl
@[simp] theorem setPC_illegalSeen (w : Word) (s : State) : (setPC w s).illegalSeen = s.illegalSeen := rfl
@[simp] theorem setPC_history (w : Word) (s : State) : (setPC w s).history = s.history := rfl
@[simp] theorem setPC_mem (w : Word) (s : State) : (setPC w s).mem = s.mem := rfl
@[simp] theorem setPC_cfg (w : Word) (s : State) : (setPC w s).cfg = s.cfg := rfl

@[simp] theorem setStatusBits_pc (v : Byte) (s : State) : (setStatusBits v s).pc = s.pc := rfl
@[simp] theorem setStatusBits_sp (v : Byte) (s : State) : (setStatusBits v s).sp = s.sp := rfl
@[simp] theorem setStatusBits_a (v : Byte) (s : State) : (setStatusBits v s).a = s.a := rfl
@[simp] theorem setStatusBits_x (v : Byte) (s : State) : (setStatusBits v s).x = s.x := rfl
@[simp] theorem setStatusBits_y (v : Byte) (s : State) : (setStatusBits v s).y = s.y := rfl
@[simp] theorem setStatusBits_flags (v : Byte) (s : State) : (setStatusBits v s).flags = statusFlags v := rfl
@[simp] theorem setStatusBits_t (v : Byte) (s : State) : (setStatusBits v s).t = s.t := rfl
@[simp] theorem setStatusBits_opcode (v : Byte) (s : State) : (setStatusBits v s).opcode = s.opcode := rfl
@[simp] theorem setStatusBits_cycles (v : Byte) (s : State) : (setStatusBits v s).cycles = s.cycles := rfl
@[simp] theorem setStatusBits_pendingNMI (v : Byte) (s : State) : (setStatusBits v s).pendingNMI = s.pendingNMI := rfl
@[simp] theorem setStatusBits_pendingIRQ (v : Byte) (s : State) : (setStatusBits v s).pendingIRQ = s.pendingIRQ := rfl
@[simp] theorem setStatusBits_lat (v : Byte) (s : State) : (setStatusBits v s).lat = s.lat := rfl
@[simp] theorem setStatusBits_illegalSeen (v : Byte) (s : State) : (setStatusBits v s).illegalSeen = s.illegalSeen := rfl
@[simp] theorem setStatusBits_history (v : Byte) (s : State) : (setStatusBits v s).history = s.history := rfl
@[simp] theorem setStatusBits_mem (v : Byte) (s : State) : (setStatusBits v s).mem = s.mem := rfl
@[simp] theorem setStatusBits_cfg (v : Byte) (s : State) : (setStatusBits v s).cfg = s.cfg := rfl

@[simp] theorem emit_pc (h : Hook) (s : State) : (emit h s).pc = s.pc := rfl
@[simp] theorem emit_sp (h : Hook) (s : State) : (emit h s).sp = s.sp := rfl
@[simp] theorem emit_a (h : Hook) (s : State) : (emit h s).a = s.a := rfl
@[simp] theorem emit_x (h : Hook) (s : State) : (emit h s).x = s.x := rfl
@[simp] theorem emit_y (h : Hook) (s : State) : (emit h s).y = s.y := rfl
@[simp] theorem emit_flags (h : Hook) (s : State) : (emit h s).flags = s.flags := rfl
@[simp] theorem emit_t (h : Hook) (s : State) : (emit h s).t = s.t := rfl
@[simp] theorem emit_opcode (h : Hook) (s : State) : (emit h s).opcode = s.opcode := rfl
@[simp] theorem emit_cycles (h : Hook) (s : State) : (emit h s).cycles = s.cycles := rfl
@[simp] theorem emit_pendingNMI (h : Hook) (s : State) : (emit h s).pendingNMI = s.pendingNMI := rfl
@[simp] theorem emit_pendingIRQ (h : Hook) (s : State) : (emit h s).pendingIRQ = s.pendingIRQ := rfl
@[simp] theorem emit_lat (h : Hook) (s : State) : (emit h s).lat = s.lat := rfl
@[simp] theorem emit_illegalSeen (h : Hook) (s : State) : (emit h s).illegalSeen = s.illegalSeen := rfl
@[simp] theorem emit_history (h : Hook) (s : State) : (emit h s).history = .hook h :: s.history := rfl
@[simp] theorem emit_mem (h : Hook) (s : State) : (emit h s).mem = s.mem := rfl
@[simp] theorem emit_cfg (h : Hook) (s : State) : (emit h s).cfg = s.cfg := rfl

@[simp] theorem markIllegal_pc (s : State) : (markIllegal s).pc = s.pc := rfl
@[simp] theorem markIllegal_sp (s : State) : (markIllegal s).sp = s.sp := rfl
@[simp] theorem markIllegal_a (s : State) : (markIllegal s).a = s.a := rfl
@[simp] theorem markIllegal_x (s : State) : (markIllegal s).x = s.x := rfl
@[simp] theorem markIllegal_y (s : State) : (markIllegal s).y = s.y := rfl
@[simp] theorem markIllegal_flags (s : State) : (markIllegal s).flags = s.flags := rfl
@[simp] theorem markIllegal_t (s : State) : (markIllegal s).t = s.t := rfl
@[simp] theorem markIllegal_opcode (s : State) : (markIllegal s).opcode = s.opcode := rfl
@[simp] theorem markIllegal_cycles (s : State) : (markIllegal s).cycles = s.cycles := rfl
@[simp] theorem markIllegal_pendingNMI (s : State) : (markIllegal s).pendingNMI = s.pendingNMI := rfl
@[simp] theorem markIllegal_pendingIRQ (s : State) : (markIllegal s).pendingIRQ = s.pendingIRQ := rfl
@[simp] theorem markIllegal_lat (s : State) : (markIllegal s).lat = s.lat := rfl
@[simp] theorem markIllegal_illegalSeen (s : State) : (markIllegal s).illegalSeen = true := rfl
@[simp] theorem markIllegal_history (s : State) : (markIllegal s).history = s.history := rfl
@[simp] theorem markIllegal_mem (s : State) : (markIllegal s).mem = s.mem := rfl
@[simp] theorem markIllegal_cfg (s : State) : (markIllegal s).cfg = s.cfg := rfl

@[simp] theorem idleCycles_pc (k : Nat) (s : State) : (idleCycles k s).pc = s.pc := rfl
@[simp] theorem idleCycles_sp (k : Nat) (s : State) : (idleCycles k s).sp = s.sp := rfl
@[simp] theorem idleCycles_a (k : Nat) (s : State) : (idleCycles k s).a = s.a := rfl
@[simp] theorem idleCycles_x (k : Nat) (s : State) : (idleCycles k s).x = s.x := rfl
@[simp] theorem idleCycles_y (k : Nat) (s : State) : (idleCycles k s).y = s.y := rfl
@[simp] theorem idleCycles_flags (k : Nat) (s : State) : (idleCycles k s).flags = s.flags := rfl
@[simp] theorem idleCycles_t (k : Nat) (s : State) : (idleCycles k s).t = s.t + k := rfl
@[simp] theorem idleCycles_opcode (k : Nat) (s : State) : (idleCycles k s).opcode = s.opcode := rfl
@[simp] theorem idleCycles_cycles (k : Nat) (s : State) : (idleCycles k s).cycles = s.cycles + k := rfl
@[simp] theorem idleCycles_pendingNMI (k : Nat) (s : State) : (idleCycles k s).pendingNMI = s.pendingNMI := rfl
@[simp] theorem idleCycles_pendingIRQ (k : Nat) (s : State) : (idleCycles k s).pendingIRQ = s.pendingIRQ := rfl
@[simp] theorem idleCycles_lat (k : Nat) (s : State) : (idleCycles k s).lat = s.lat := rfl
@[simp] theorem idleCycles_illegalSeen (k : Nat) (s : State) : (idleCycles k s).illegalSeen = s.illegalSeen := rfl
@[simp] theorem idleCycles_history (k : Nat) (s : State) : (idleCycles k s).history = s.history := rfl
@[simp] theorem idleCycles_mem (k : Nat) (s : State) : (idleCycles k s).mem = s.mem := rfl
@[simp] theorem idleCycles_cfg (k : Nat) (s : State) : (idleCycles k s).cfg = s.cfg := rfl

@[simp] theorem endInstr_pc (s : State) : (endInstr s).pc = s.pc := rfl
@[simp] theorem endInstr_sp (s : State) : (endInstr s).sp = s.sp := rfl
@[simp] theorem endInstr_a (s : State) : (endInstr s).a = s.a := rfl
@[simp] theorem endInstr_x (s : State) : (endInstr s).x = s.x := rfl
@[simp] theorem endInstr_y (s : State) : (endInstr s).y = s.y := rfl
@[simp] theorem endInstr_flags (s : State) : (endInstr s).flags = s.flags := rfl
@[simp] theorem endInstr_t (s : State) : (endInstr s).t = 0 := rfl
@[simp] theorem endInstr_opcode (s : State) : (endInstr s).opcode = s.opcode := rfl
@[simp] theorem endInstr_cycles (s : State) : (endInstr s).cycles = s.cycles := rfl
@[simp] theorem endInstr_pendingNMI (s : State) : (endInstr s).pendingNMI = s.pendingNMI := rfl
@[simp] theorem endInstr_pendingIRQ (s : State) : (endInstr s).pendingIRQ = s.pendingIRQ := rfl
@[simp] theorem endInstr_lat (s : State) : (endInstr s).lat = s.lat := rfl
@[simp] theorem endInstr_illegalSeen (s : State) : (endInstr s).illegalSeen = s.illegalSeen := rfl
@[simp] theorem endInstr_history (s : State) : (endInstr s).history = s.history := rfl
@[simp] theorem endInstr_mem (s : State) : (endInstr s).mem = s.mem := rfl
@[simp] theorem endInstr_cfg (s : State) : (endInstr s).cfg = s.cfg := rfl

@[simp] theorem setNZ_pc (v : Byte) (s : State) : (setNZ v s).pc = s.pc := rfl
@[simp] theorem setNZ_sp (v : Byte) (s : State) : (setNZ v s).sp = s.sp := rfl
@[simp] theorem setNZ_a (v : Byte) (s : State) : (setNZ v s).a = s.a := rfl
@[simp] theorem setNZ_x (v : Byte) (s : State) : (setNZ v s).x = s.x := rfl
@[simp] theorem setNZ_y (v : Byte) (s : State) : (setNZ v s).y = s.y := rfl
@[simp] theorem setNZ_flags (v : Byte) (s : State) : (setNZ v s).flags = s.flags.withNZ v := rfl
@[simp] theorem setNZ_t (v : Byte) (s : State) : (setNZ v s).t = s.t := rfl
@[simp] theorem setNZ_opcode (v : Byte) (s : State) : (setNZ v s).opcode = s.opcode := rfl
@[simp] theorem setNZ_cycles (v : Byte) (s : State) : (setNZ v s).cycles = s.cycles := rfl
@[simp] theorem setNZ_pendingNMI (v : Byte) (s : State) : (setNZ v s).pendingNMI = s.pendingNMI := rfl
@[simp] theorem setNZ_pendingIRQ (v : Byte) (s : State) : (setNZ v s).pendingIRQ = s.pendingIRQ := rfl
@[simp] theorem setNZ_lat (v : Byte) (s : State) : (setNZ v s).lat = s.lat := rfl
@[simp] theorem setNZ_illegalSeen (v : Byte) (s : State) : (setNZ v s).illegalSeen = s.illegalSeen := rfl
@[simp] theorem setNZ_history (v : Byte) (s : State) : (setNZ v s).history = s.history := rfl
@[simp] theorem setNZ_mem (v : Byte) (s : State) : (setNZ v s).mem = s.mem := rfl
@[simp] theorem setNZ_cfg (v : Byte) (s : State) : (setNZ v s).cfg = s.cfg := rfl

@[simp] theorem setNZC_pc (v : Byte) (c : Bool) (s : State) : (setNZC v c s).pc = s.pc := rfl
@[simp] theorem setNZC_sp (v : Byte) (c : Bool) (s : State) : (setNZC v c s).sp = s.sp := rfl
@[simp] theorem setNZC_a (v : Byte) (c : Bool) (s : State) : (setNZC v c s).a = s.a := rfl
@[simp] theorem setNZC_x (v : Byte) (c : Bool) (s : State) : (setNZC v c s).x = s.x := rfl
@[simp] theorem setNZC_y (v : Byte) (c : Bool) (s : State) : (setNZC v c s).y = s.y := rfl
@[simp] theorem setNZC_flags (v : Byte) (c : Bool) (s : State) : (setNZC v c s).flags = { s.flags.withNZ v with c := c } := rfl
@[simp] theorem setNZC_t (v : Byte) (c : Bool) (s : State) : (setNZC v c s).t = s.t := rfl
@[simp] theorem setNZC_opcode (v : Byte) (c : Bool) (s : State) : (setNZC v c s).opcode = s.opcode := rfl
@[simp] theorem setNZC_cycles (v : Byte) (c : Bool) (s : State) : (setNZC v c s).cycles = s.cycles := rfl
@[simp] theorem setNZC_pendingNMI (v : Byte) (c : Bool) (s : State) : (setNZC v c s).pendingNMI = s.pendingNMI := rfl
@[simp] theorem setNZC_pendingIRQ (v : Byte) (c : Bool) (s : State) : (setNZC v c s).pendingIRQ = s.pendingIRQ := rfl
@[simp] theorem setNZC_lat (v : Byte) (c : Bool) (s : State) : (setNZC v c s).lat = s.lat := rfl
@[simp] theorem setNZC_illegalSeen (v : Byte) (c : Bool) (s : State) : (setNZC v c s).illegalSeen = s.illegalSeen := rfl
@[simp] theorem setNZC_history (v : Byte) (c : Bool) (s : State) : (setNZC v c s).history = s.history := rfl
@[simp] theorem setNZC_mem (v : Byte) (c : Bool) (s : State) : (setNZC v c s).mem = s.mem := rfl
@[simp] theorem setNZC_cfg (v : Byte) (c : Bool) (s : State) : (setNZC v c s).cfg = s.cfg := rfl

@[simp] theorem applyArith_pc (q : Arith) (s : State) : (applyArith q s).pc = s.pc := rfl
@[simp] theorem applyArith_sp (q : Arith) (s : State) : (applyArith q s).sp = s.sp := rfl
@[simp] theorem applyArith_a (q : Arith) (s : State) : (applyArith q s).a = q.r := rfl
@[simp] theorem applyArith_x (q : Arith) (s : State) : (applyArith q s).x = s.x := rfl
@[simp] theorem applyArith_y (q : Arith) (s : State) : (applyArith q s).y = s.y := rfl
@[simp] theorem applyArith_flags (q : Arith) (s : State) : (applyArith q s).flags = { s.flags with n := q.n, v := q.v, z := q.z, c := q.c } := rfl
@[simp] theorem applyArith_t (q : Arith) (s : State) : (applyArith q s).t = s.t := rfl
@[simp] theorem applyArith_opcode (q : Arith) (s : State) : (applyArith q s).opcode = s.opcode := rfl
@[simp] theorem applyArith_cycles (q : Arith) (s : State) : (applyArith q s).cycles = s.cycles := rfl
@[simp] theorem applyArith_pendingNMI (q : Arith) (s : State) : (applyArith q s).pendingNMI = s.pendingNMI := rfl
@[simp] theorem applyArith_pendingIRQ (q : Arith) (s : State) : (applyArith q s).pendingIRQ = s.pendingIRQ := rfl
@[simp] theorem applyArith_lat (q : Arith) (s : State) : (applyArith q s).lat = s.lat := rfl
@[simp] theorem applyArith_illegalSeen (q : Arith) (s : State) : (applyArith q s).illegalSeen = s.illegalSeen := rfl
@[simp] theorem applyArith_history (q : Arith) (s : State) : (applyArith q s).history = s.history := rfl
@[simp] theorem applyArith_mem (q : Arith) (s : State) : (applyArith q s).mem = s.mem := rfl
@[simp] theorem applyArith_cfg (q : Arith) (s : State) : (applyArith q s).cfg = s.cfg := rfl

@[simp] theorem compare_pc (r m : Byte) (s : State) : (compare r m s).pc = s.pc := rfl
@[simp] theorem compare_sp (r m : Byte) (s : State) : (compare r m s).sp = s.sp := rfl
@[simp] theorem compare_a (r m : Byte) (s : State) : (compare r m s).a = s.a := rfl
@[simp] theorem compare_x (r m : Byte) (s : State) : (compare r m s).x = s.x := rfl
@[simp] theorem compare_y (r m : Byte) (s : State) : (compare r m s).y = s.y := rfl
@[simp] theorem compare_flags (r m : Byte) (s : State) : (compare r m s).flags = compareFlags r m s.flags := rfl
@[simp] theorem compare_t (r m : Byte) (s : State) : (compare r m s).t = s.t := rfl
@[simp] theorem compare_opcode (r m : Byte) (s : State) : (compare r m s).opcode = s.opcode := rfl
@[simp] theorem compare_cycles (r m : Byte) (s : State) : (compare r m s).cycles = s.cycles := rfl
@[simp] theorem compare_pendingNMI (r m : Byte) (s : State) : (compare r m s).pendingNMI = s.pendingNMI := rfl
@[simp] theorem compare_pendingIRQ (r m : Byte) (s : State) : (compare r m s).pendingIRQ = s.pendingIRQ := rfl
@[simp] theorem compare_lat (r m : Byte) (s : State) : (compare r m s).lat = s.lat := rfl
@[simp] theorem compare_illegalSeen (r m : Byte) (s : State) : (compare r m s).illegalSeen = s.illegalSeen := rfl
@[simp] theorem compare_history (r m : Byte) (s : State) : (compare r m s).history = s.history := rfl
@[simp] theorem compare_mem (r m : Byte) (s : State) : (compare r m s).mem = s.mem := rfl
@[simp] theorem compare_cfg (r m : Byte) (s : State) : (compare r m s).cfg = s.cfg := rfl

@[simp] theorem testBits_pc (m : Byte) (s : State) : (testBits m s).pc = s.pc := rfl
@[simp] theorem testBits_sp (m : Byte) (s : State) : (testBits m s).sp = s.sp := rfl
@[simp] theorem testBits_a (m : Byte) (s : State) : (testBits m s).a = s.a := rfl
@[simp] theorem testBits_x (m : Byte) (s : State) : (testBits m s).x = s.x := rfl
@[simp] theorem testBits_y (m : Byte) (s : State) : (testBits m s).y = s.y := rfl
@[simp] theorem testBits_flags (m : Byte) (s : State) : (testBits m s).flags = { s.flags with z := (s.a &&& m) == 0 } := rfl
@[simp] theorem testBits_t (m : Byte) (s : State) : (testBits m s).t = s.t := rfl
@[simp] theorem testBits_opcode (m : Byte) (s : State) : (testBits m s).opcode = s.opcode := rfl
@[simp] theorem testBits_cycles (m : Byte) (s : State) : (testBits m s).cycles = s.cycles := rfl
@[simp] theorem testBits_pendingNMI (m : Byte) (s : State) : (testBits m s).pendingNMI = s.pendingNMI := rfl
@[simp] theorem testBits_pendingIRQ (m : Byte) (s : State) : (testBits m s).pendingIRQ = s.pendingIRQ := rfl
@[simp] theorem testBits_lat (m : Byte) (s : State) : (testBits m s).lat = s.lat := rfl
@[simp] theorem testBits_illegalSeen (m : Byte) (s : State) : (testBits m s).illegalSeen = s.illegalSeen := rfl
@[simp] theorem testBits_history (m : Byte) (s : State) : (testBits m s).history = s.history := rfl
@[simp] theorem testBits_mem (m : Byte) (s : State) : (testBits m s).mem = s.mem := rfl
@[simp] theorem testBits_cfg (m : Byte) (s : State) : (testBits m s).cfg = s.cfg := rfl

@[simp] theorem Flags.withNZ_n (f : Flags) (v : Byte) : (f.withNZ v).n = v.getLsbD 7 := rfl
@[simp] theorem Flags.withNZ_v (f : Flags) (v : Byte) : (f.withNZ v).v = f.v := rfl
@[simp] theorem Flags.withNZ_d (f : Flags) (v : Byte) : (f.withNZ v).d = f.d := rfl
@[simp] theorem Flags.withNZ_i (f : Flags) (v : Byte) : (f.withNZ v).i = f.i := rfl
@[simp] theorem Flags.withNZ_z (f : Flags) (v : Byte) : (f.withNZ v).z = (v == 0) := rfl
@[simp] theorem Flags.withNZ_c (f : Flags) (v : Byte) : (f.withNZ v).c = f.c := rfl

@[simp] theorem compareFlags_v (r m : Byte) (f : Flags) : (compareFlags r m f).v = f.v := rfl
@[simp] theorem compareFlags_d (r m : Byte) (f : Flags) : (compareFlags r m f).d = f.d := rfl
@[simp] theorem compareFlags_i (r m : Byte) (f : Flags) : (compareFlags r m f).i = f.i := rfl

/-- A read into a destination is a read cycle and then the destination. -/
theorem readTo_eq (put : Byte → State → State) (addr : Word) (s : State) :
    readTo put addr s = put (busAnswer addr s) (readCycle addr s) := rfl

/-- A fetch is a read cycle at PC, the increment of PC, and then the destination. -/
theorem fetchTo_eq (put : Byte → State → State) (s : State) :
    fetchTo put s = put (busAnswer s.pc s) (setPC (s.pc + 1) (readCycle s.pc s)) := rfl

/-- Finishing answers a next state, always. -/
@[simp] theorem finish_eq (s : State) : finish s = .next (endInstr s) := rfl

end Sys2Proof.Machine
end

