-- ==== Sys2Proof/Laws/Decode.lean ====
section
/-! SUPPORT. The opcode map has an entry for every opcode, so its default is never used; taking operand bytes off a list undoes
putting them there. -/

namespace Sys2Proof

theorem opcodeMap_rows : opcodeMap.map List.length = List.replicate 16 16 := by decide

/-- Every opcode has an entry: no CMOS65C02 opcode is the default of the lookup (R113, R386). -/
theorem opcodeMap_total : ∀ op : Byte, (cmosEntry op).isIllegal = false := by decide

/-- An operand's bytes are taken back off the list they were put on. -/
theorem takeOperand_bytes (o : Operand) (rest : List Byte) :
    takeOperand o.bytes.length (o.bytes ++ rest) = some (o, rest) := by
  cases o <;> rfl

end Sys2Proof
end

