-- ==== Sys2Proof/Laws/Memory.lean ====
section
/-! SUPPORT. Memory: every operation keeps the canonical form; a byte reads as last written and every other byte as before. -/

namespace Sys2Proof.Machine

theorem Memory.wfFrom_mono {lo lo' : Nat} (h : lo' ≤ lo) : ∀ {m : List Host.Cell}, wfFrom lo m = true → wfFrom lo' m = true
  | [], _ => rfl
  | (k, v) :: rest, hm => by
    simp only [wfFrom, Bool.and_eq_true, decide_eq_true_eq] at hm ⊢
    exact ⟨⟨⟨by omega, hm.1.1.2⟩, hm.1.2⟩, hm.2⟩

/-- An address below every listed one reads as unlisted. -/
theorem Memory.get_below : ∀ {lo : Nat} {m : List Host.Cell}, wfFrom lo m = true → ∀ {a : Nat}, a < lo → get m a = unlisted
  | _, [], _, _, _ => rfl
  | lo, (k, v) :: rest, hm, a, ha => by
    simp only [wfFrom, Bool.and_eq_true, decide_eq_true_eq] at hm
    simp only [get, if_pos (show a < k by omega)]

theorem Memory.wfFrom_putHead {lo a : Nat} {v : Byte} {rest : List Host.Cell} (hlo : lo ≤ a) (ha : a < 65536)
    (h : wfFrom (a + 1) rest = true) : wfFrom lo (putHead a v rest) = true := by
  unfold putHead
  split
  · exact wfFrom_mono (by omega) h
  · simp [wfFrom, *]

theorem Memory.wfFrom_set {a : Nat} {v : Byte} (ha : a < 65536) :
    ∀ {lo : Nat} {m : List Host.Cell}, wfFrom lo m = true → lo ≤ a → wfFrom lo (set m a v) = true
  | lo, [], _, hlo => wfFrom_putHead hlo ha rfl
  | lo, (k, w) :: rest, hm, hlo => by
    have hm' := hm
    simp only [wfFrom, Bool.and_eq_true, decide_eq_true_eq] at hm'
    simp only [set]
    split
    · exact wfFrom_putHead hlo ha (by simp [wfFrom, hm'.1.1.2, hm'.1.2, hm'.2]; omega)
    split
    · subst_vars; exact wfFrom_putHead hlo ha hm'.2
    · simp only [wfFrom, Bool.and_eq_true, decide_eq_true_eq]
      exact ⟨hm'.1, wfFrom_set ha hm'.2 (by omega)⟩

/-- Writing a byte keeps the canonical form. -/
theorem Memory.wf_set {m : List Host.Cell} (h : wf m = true) {a : Nat} (ha : a < 65536) (v : Byte) :
    wf (set m a v) = true :=
  wfFrom_set ha h (Nat.zero_le _)

theorem Memory.get_putHead_same {a : Nat} {v : Byte} {rest : List Host.Cell} (h : wfFrom (a + 1) rest = true) :
    get (putHead a v rest) a = v := by
  unfold putHead
  split
  · rw [get_below h (by omega)]; exact (by assumption : v = unlisted).symm
  · simp [get]

theorem Memory.get_putHead_ne {a b : Nat} {v : Byte} {rest : List Host.Cell} (h : wfFrom (a + 1) rest = true) (hb : b ≠ a) :
    get (putHead a v rest) b = get rest b := by
  unfold putHead
  split
  · rfl
  · simp only [get, if_neg hb]
    split
    · exact (get_below h (by omega)).symm
    · rfl

theorem Memory.get_set_same_from {a : Nat} {v : Byte} :
    ∀ {lo : Nat} {m : List Host.Cell}, wfFrom lo m = true → get (set m a v) a = v
  | _, [], _ => get_putHead_same rfl
  | _, (k, w) :: rest, hm => by
    have hm' := hm
    simp only [wfFrom, Bool.and_eq_true, decide_eq_true_eq] at hm'
    simp only [set]
    split
    · exact get_putHead_same (by simp [wfFrom, hm'.1.1.2, hm'.1.2, hm'.2]; omega)
    split
    · subst_vars; exact get_putHead_same hm'.2
    · simp only [get]
      rw [if_neg (by assumption), if_neg (by assumption)]
      exact get_set_same_from hm'.2

theorem Memory.get_set_ne_from {a b : Nat} {v : Byte} (hb : b ≠ a) :
    ∀ {lo : Nat} {m : List Host.Cell}, wfFrom lo m = true → get (set m a v) b = get m b
  | _, [], _ => get_putHead_ne rfl hb
  | _, (k, w) :: rest, hm => by
    have hm' := hm
    simp only [wfFrom, Bool.and_eq_true, decide_eq_true_eq] at hm'
    simp only [set]
    split
    · exact get_putHead_ne (by simp [wfFrom, hm'.1.1.2, hm'.1.2, hm'.2]; omega) hb
    split
    · subst_vars
      rw [get_putHead_ne hm'.2 hb]
      simp only [get, if_neg hb]
      split
      · exact get_below hm'.2 (by omega)
      · rfl
    · simp only [get, get_set_ne_from hb hm'.2]

/-- A byte reads as last written. -/
theorem Memory.get_set_same {m : List Host.Cell} (h : wf m = true) (a : Nat) (v : Byte) : get (set m a v) a = v :=
  get_set_same_from h

/-- A write leaves every other byte alone. -/
theorem Memory.get_set_ne {m : List Host.Cell} (h : wf m = true) {a b : Nat} (hb : b ≠ a) (v : Byte) :
    get (set m a v) b = get m b :=
  get_set_ne_from hb h

/-- A write cycle keeps memory's canonical form. -/
theorem writeCycle_wf {s : State} (h : Memory.wf s.mem = true) (addr : Word) (v : Byte) :
    Memory.wf (writeCycle addr v s).mem = true := by
  simp only [writeCycle_mem]
  split
  · exact Memory.wf_set h addr.isLt v
  · exact h

/-- A push keeps memory's canonical form. -/
theorem push_wf {s : State} (h : Memory.wf s.mem = true) (v : Byte) : Memory.wf (push v s).mem = true :=
  writeCycle_wf h (stackAddr s.sp) v

/-- What a write cycle does to every byte: RAM at its address holds the value, everything else is as before. -/
theorem writeCycle_get {s : State} (h : Memory.wf s.mem = true) (addr : Word) (v : Byte) (b : Nat) :
    Memory.get (writeCycle addr v s).mem b
      = if b = addr.toNat ∧ s.isRam addr = true then v else Memory.get s.mem b := by
  simp only [writeCycle_mem]
  by_cases hr : s.isRam addr = true
  · rw [if_pos hr]
    by_cases hb : b = addr.toNat
    · subst hb; simp [Memory.get_set_same h, hr]
    · simp [Memory.get_set_ne h hb, hb]
  · simp [hr]

end Sys2Proof.Machine
end

