-- ==== Sys2Proof/Laws/Ops.lean ====
section
/-! SUPPORT. Once for each shared operation, everything it can do: `Progress` (what every cycle keeps, whatever it does) and
`OperandPhase` (what the operand cycles of an instruction leave alone). -/

namespace Sys2Proof.Machine

theorem historyBelow_mono {b b' : Nat} (h : b ≤ b') : ∀ {l : List BusEvent}, historyBelow b l = true → historyBelow b' l = true
  | [], _ => rfl
  | .read _ c :: rest, hl => by
    simp only [historyBelow, Bool.and_eq_true, decide_eq_true_eq] at hl ⊢
    exact ⟨by omega, hl.2⟩
  | .write _ _ c :: rest, hl => by
    simp only [historyBelow, Bool.and_eq_true, decide_eq_true_eq] at hl ⊢
    exact ⟨by omega, hl.2⟩
  | .hook _ :: rest, hl => by
    simp only [historyBelow] at hl ⊢
    exact historyBelow_mono h hl

/-- What every piece of an instruction keeps: the configuration and the pending IRQ and NMI are a matter of the boundary step
alone, so they too stand here; memory stays canonical, the history grows by accesses numbered in order, and each of them took a
cycle. -/
structure Progress (s t : State) : Prop where
  cfg        : t.cfg = s.cfg
  nmi        : t.pendingNMI = s.pendingNMI
  irq        : t.pendingIRQ = s.pendingIRQ
  wf         : Memory.wf s.mem = true → Memory.wf t.mem = true
  below      : historyBelow s.cycles s.history = true → historyBelow t.cycles t.history = true
  count      : accessCount t.history + s.cycles = accessCount s.history + t.cycles
  cycles_le  : s.cycles ≤ t.cycles
  suffix     : s.history <:+ t.history

theorem Progress.refl (s : State) : Progress s s :=
  ⟨rfl, rfl, rfl, id, id, rfl, Nat.le_refl _, List.suffix_rfl⟩

theorem Progress.trans {s t u : State} (h : Progress s t) (k : Progress t u) : Progress s u :=
  ⟨k.cfg.trans h.cfg, k.nmi.trans h.nmi, k.irq.trans h.irq, k.wf ∘ h.wf, k.below ∘ h.below,
    by have := h.count; have := k.count; omega, Nat.le_trans h.cycles_le k.cycles_le, h.suffix.trans k.suffix⟩

/-- A pure update of registers, flags or latches is progress that takes no cycle. -/
theorem Progress.of_eq {s t : State} (hc : t.cfg = s.cfg) (hn : t.pendingNMI = s.pendingNMI) (hi : t.pendingIRQ = s.pendingIRQ)
    (hm : t.mem = s.mem) (hcy : t.cycles = s.cycles) (hh : t.history = s.history) : Progress s t :=
  ⟨hc, hn, hi, by simp [hm], by simp [hcy, hh], by simp [hcy, hh], by simp [hcy], by simp [hh]⟩

theorem Progress.readCycle (addr : Word) (s : State) : Progress s (readCycle addr s) :=
  ⟨rfl, rfl, rfl, id, fun h => by simpa [historyBelow] using h, by simp [accessCount]; omega, by simp, by simp⟩

theorem Progress.writeCycle (addr : Word) (v : Byte) (s : State) : Progress s (writeCycle addr v s) :=
  ⟨rfl, rfl, rfl, fun h => writeCycle_wf h addr v, fun h => by simpa [historyBelow] using h,
    by simp [accessCount]; omega, by simp, by simp⟩

theorem Progress.emit (h : Hook) (s : State) : Progress s (emit h s) :=
  ⟨rfl, rfl, rfl, id, id, rfl, Nat.le_refl _, List.suffix_cons _ _⟩

theorem Progress.setPC (w : Word) (s : State) : Progress s (setPC w s) :=
  Progress.of_eq rfl rfl rfl rfl rfl rfl

theorem Progress.setFlags (f : Flags) (s : State) : Progress s { s with flags := f } :=
  Progress.of_eq rfl rfl rfl rfl rfl rfl

theorem Progress.push (v : Byte) (s : State) : Progress s (push v s) :=
  (Progress.writeCycle (stackAddr s.sp) v s).trans (Progress.of_eq rfl rfl rfl rfl rfl rfl)

/-- A destination that only writes registers, flags or latches. -/
structure PureDest (put : Byte → State → State) : Prop where
  progress : ∀ b s, Progress s (put b s)
  cycles   : ∀ b s, (put b s).cycles = s.cycles

theorem PureDest.of_eq {put : Byte → State → State} (hc : ∀ b s, (put b s).cfg = s.cfg)
    (hn : ∀ b s, (put b s).pendingNMI = s.pendingNMI) (hi : ∀ b s, (put b s).pendingIRQ = s.pendingIRQ)
    (hm : ∀ b s, (put b s).mem = s.mem) (hcy : ∀ b s, (put b s).cycles = s.cycles)
    (hh : ∀ b s, (put b s).history = s.history) : PureDest put :=
  ⟨fun b s => Progress.of_eq (hc b s) (hn b s) (hi b s) (hm b s) (hcy b s) (hh b s), hcy⟩

theorem Progress.readTo {put : Byte → State → State} (hp : PureDest put) (addr : Word) (s : State) :
    Progress s (readTo put addr s) :=
  (Progress.readCycle addr s).trans (hp.progress _ _)

theorem Progress.fetchTo {put : Byte → State → State} (hp : PureDest put) (s : State) : Progress s (fetchTo put s) :=
  ((Progress.readCycle s.pc s).trans (Progress.setPC (s.pc + 1) _)).trans (hp.progress (busAnswer s.pc s) _)

theorem Progress.pullTo {put : Byte → State → State} (hp : PureDest put) (s : State) : Progress s (pullTo put s) :=
  (show Progress s { s with sp := s.sp + 1 } from Progress.of_eq rfl rfl rfl rfl rfl rfl).trans (Progress.readTo hp _ _)

theorem pureDest_setADL : PureDest setADL :=
  .of_eq (fun _ _ => rfl) (fun _ _ => rfl) (fun _ _ => rfl) (fun _ _ => rfl) (fun _ _ => rfl) (fun _ _ => rfl)
theorem pureDest_setADH : PureDest setADH :=
  .of_eq (fun _ _ => rfl) (fun _ _ => rfl) (fun _ _ => rfl) (fun _ _ => rfl) (fun _ _ => rfl) (fun _ _ => rfl)
theorem pureDest_setBAL : PureDest setBAL :=
  .of_eq (fun _ _ => rfl) (fun _ _ => rfl) (fun _ _ => rfl) (fun _ _ => rfl) (fun _ _ => rfl) (fun _ _ => rfl)
theorem pureDest_setBAH : PureDest setBAH :=
  .of_eq (fun _ _ => rfl) (fun _ _ => rfl) (fun _ _ => rfl) (fun _ _ => rfl) (fun _ _ => rfl) (fun _ _ => rfl)
theorem pureDest_setIAL : PureDest setIAL :=
  .of_eq (fun _ _ => rfl) (fun _ _ => rfl) (fun _ _ => rfl) (fun _ _ => rfl) (fun _ _ => rfl) (fun _ _ => rfl)
theorem pureDest_setIAH : PureDest setIAH :=
  .of_eq (fun _ _ => rfl) (fun _ _ => rfl) (fun _ _ => rfl) (fun _ _ => rfl) (fun _ _ => rfl) (fun _ _ => rfl)
theorem pureDest_setOFF : PureDest setOFF :=
  .of_eq (fun _ _ => rfl) (fun _ _ => rfl) (fun _ _ => rfl) (fun _ _ => rfl) (fun _ _ => rfl) (fun _ _ => rfl)
theorem pureDest_setDATA : PureDest setDATA :=
  .of_eq (fun _ _ => rfl) (fun _ _ => rfl) (fun _ _ => rfl) (fun _ _ => rfl) (fun _ _ => rfl) (fun _ _ => rfl)
theorem pureDest_setOpcode : PureDest setOpcode :=
  .of_eq (fun _ _ => rfl) (fun _ _ => rfl) (fun _ _ => rfl) (fun _ _ => rfl) (fun _ _ => rfl) (fun _ _ => rfl)
theorem pureDest_setStatusBits : PureDest setStatusBits :=
  .of_eq (fun _ _ => rfl) (fun _ _ => rfl) (fun _ _ => rfl) (fun _ _ => rfl) (fun _ _ => rfl) (fun _ _ => rfl)

/-- A destination followed by SetNZ of the byte (the pulls). -/
theorem PureDest.withNZ {put : Byte → State → State} (hp : PureDest put) : PureDest (fun v s => setNZ v (put v s)) :=
  ⟨fun b s => (hp.progress b s).trans (Progress.of_eq rfl rfl rfl rfl rfl rfl), fun b s => hp.cycles b s⟩

theorem pureDest_setA : PureDest setA :=
  .of_eq (fun _ _ => rfl) (fun _ _ => rfl) (fun _ _ => rfl) (fun _ _ => rfl) (fun _ _ => rfl) (fun _ _ => rfl)
theorem pureDest_setX : PureDest setX :=
  .of_eq (fun _ _ => rfl) (fun _ _ => rfl) (fun _ _ => rfl) (fun _ _ => rfl) (fun _ _ => rfl) (fun _ _ => rfl)
theorem pureDest_setY : PureDest setY :=
  .of_eq (fun _ _ => rfl) (fun _ _ => rfl) (fun _ _ => rfl) (fun _ _ => rfl) (fun _ _ => rfl) (fun _ _ => rfl)

/-! ## The operand cycles -/

/-- What the cycles that form an address or load an operand leave alone: every register but PC, the flags, memory and all the
control state. They may advance PC, T, `cycles` and the history, and write latches. -/
structure OperandPhase (s t : State) : Prop extends Progress s t where
  a           : t.a = s.a
  x           : t.x = s.x
  y           : t.y = s.y
  sp          : t.sp = s.sp
  flags       : t.flags = s.flags
  mem         : t.mem = s.mem
  opcode      : t.opcode = s.opcode
  illegalSeen : t.illegalSeen = s.illegalSeen

theorem OperandPhase.refl (s : State) : OperandPhase s s :=
  ⟨Progress.refl s, rfl, rfl, rfl, rfl, rfl, rfl, rfl, rfl⟩

theorem OperandPhase.trans {s t u : State} (h : OperandPhase s t) (k : OperandPhase t u) : OperandPhase s u :=
  ⟨h.toProgress.trans k.toProgress, k.a.trans h.a, k.x.trans h.x, k.y.trans h.y, k.sp.trans h.sp, k.flags.trans h.flags,
    k.mem.trans h.mem, k.opcode.trans h.opcode, k.illegalSeen.trans h.illegalSeen⟩

/-- A destination that only writes latches. -/
def LatchDest (put : Byte → State → State) : Prop :=
  ∀ b s, OperandPhase s (put b s)

theorem latchDest_of_lat {put : Byte → State → State} (f : Byte → Latches → Latches)
    (h : ∀ b s, put b s = { s with lat := f b s.lat }) : LatchDest put := fun b s => by
  rw [h]; exact ⟨Progress.of_eq rfl rfl rfl rfl rfl rfl, rfl, rfl, rfl, rfl, rfl, rfl, rfl, rfl⟩

theorem latchDest_setADL : LatchDest setADL := latchDest_of_lat (fun b l => { l with adl := b }) (fun _ _ => rfl)
theorem latchDest_setADH : LatchDest setADH := latchDest_of_lat (fun b l => { l with adh := b }) (fun _ _ => rfl)
theorem latchDest_setBAL : LatchDest setBAL := latchDest_of_lat (fun b l => { l with bal := b }) (fun _ _ => rfl)
theorem latchDest_setBAH : LatchDest setBAH := latchDest_of_lat (fun b l => { l with bah := b }) (fun _ _ => rfl)
theorem latchDest_setIAL : LatchDest setIAL := latchDest_of_lat (fun b l => { l with ial := b }) (fun _ _ => rfl)
theorem latchDest_setIAH : LatchDest setIAH := latchDest_of_lat (fun b l => { l with iah := b }) (fun _ _ => rfl)
theorem latchDest_setOFF : LatchDest setOFF := latchDest_of_lat (fun b l => { l with off := b }) (fun _ _ => rfl)
theorem latchDest_setDATA : LatchDest setDATA := latchDest_of_lat (fun b l => { l with data := b }) (fun _ _ => rfl)

theorem OperandPhase.readCycle (addr : Word) (s : State) : OperandPhase s (readCycle addr s) :=
  ⟨Progress.readCycle addr s, rfl, rfl, rfl, rfl, rfl, rfl, rfl, rfl⟩

theorem OperandPhase.dummyRead (addr : Word) (s : State) : OperandPhase s (dummyRead addr s) :=
  OperandPhase.readCycle addr s

theorem OperandPhase.setPC (w : Word) (s : State) : OperandPhase s (setPC w s) :=
  ⟨Progress.of_eq rfl rfl rfl rfl rfl rfl, rfl, rfl, rfl, rfl, rfl, rfl, rfl, rfl⟩

theorem OperandPhase.setEA (w : Word) (s : State) : OperandPhase s (setEA w s) :=
  ⟨Progress.of_eq rfl rfl rfl rfl rfl rfl, rfl, rfl, rfl, rfl, rfl, rfl, rfl, rfl⟩

theorem OperandPhase.readTo {put : Byte → State → State} (hp : LatchDest put) (addr : Word) (s : State) :
    OperandPhase s (readTo put addr s) :=
  (OperandPhase.readCycle addr s).trans (hp _ _)

theorem OperandPhase.fetchTo {put : Byte → State → State} (hp : LatchDest put) (s : State) : OperandPhase s (fetchTo put s) :=
  ((OperandPhase.readCycle s.pc s).trans (OperandPhase.setPC (s.pc + 1) _)).trans (hp _ _)

theorem OperandPhase.indexBase (always : Bool) (index : Byte) (s : State) : OperandPhase s (indexBase always index s) := by
  unfold Machine.indexBase
  split
  · exact (OperandPhase.setEA _ s).trans (OperandPhase.dummyRead _ _)
  · exact OperandPhase.setEA _ s

/-- Forming an effective address leaves everything but PC, T, cycles, history and latches alone. -/
theorem OperandPhase.address (always : Bool) (m : AddrMode) (s : State) : OperandPhase s (address always m s) := by
  cases m
  case zp => exact (OperandPhase.fetchTo latchDest_setADL s).trans (OperandPhase.setEA _ _)
  case zpx => exact ((OperandPhase.fetchTo latchDest_setBAL s).trans (OperandPhase.dummyRead _ _)).trans (OperandPhase.setEA _ _)
  case zpy => exact ((OperandPhase.fetchTo latchDest_setBAL s).trans (OperandPhase.dummyRead _ _)).trans (OperandPhase.setEA _ _)
  case abs =>
    exact ((OperandPhase.fetchTo latchDest_setADL s).trans (OperandPhase.fetchTo latchDest_setADH _)).trans
      (OperandPhase.setEA _ _)
  case abx =>
    exact ((OperandPhase.fetchTo latchDest_setBAL s).trans (OperandPhase.fetchTo latchDest_setBAH _)).trans
      (OperandPhase.indexBase _ _ _)
  case aby =>
    exact ((OperandPhase.fetchTo latchDest_setBAL s).trans (OperandPhase.fetchTo latchDest_setBAH _)).trans
      (OperandPhase.indexBase _ _ _)
  case izx =>
    exact ((((OperandPhase.fetchTo latchDest_setBAL s).trans (OperandPhase.dummyRead _ _)).trans
      (OperandPhase.readTo latchDest_setADL _ _)).trans (OperandPhase.readTo latchDest_setADH _ _)).trans
      (OperandPhase.setEA _ _)
  case izy =>
    exact (((OperandPhase.fetchTo latchDest_setIAL s).trans (OperandPhase.readTo latchDest_setBAL _ _)).trans
      (OperandPhase.readTo latchDest_setBAH _ _)).trans (OperandPhase.indexBase _ _ _)
  case izp =>
    exact (((OperandPhase.fetchTo latchDest_setIAL s).trans (OperandPhase.readTo latchDest_setADL _ _)).trans
      (OperandPhase.readTo latchDest_setADH _ _)).trans (OperandPhase.setEA _ _)

/-- Loading an operand leaves everything but PC, T, cycles, history and latches alone. -/
theorem OperandPhase.loadOperand (m : ReadMode) (s : State) : OperandPhase s (loadOperand m s) := by
  cases m with
  | imm => exact OperandPhase.fetchTo latchDest_setDATA s
  | mem m => exact (OperandPhase.address false m s).trans (OperandPhase.readTo latchDest_setDATA _ _)

/-- A store: the address cycles, then one write at the effective address. -/
theorem storeOperand_eq (m : AddrMode) (v : Byte) (s : State) :
    storeOperand m v s = writeCycle (address true m s).lat.ea v (address true m s) := rfl

/-- The byte a read-modify-write instruction reads: the latch DATA after its read cycle. -/
theorem modifyOperand_data (m : AddrMode) (f : Byte → Byte) (s : State) :
    (modifyOperand m f s).lat.data = busAnswer (address true m s).lat.ea (address true m s) := rfl

/-- A read-modify-write: the address cycles, the read, the unmodified byte written back, the result written (R151). -/
theorem modifyOperand_eq (m : AddrMode) (f : Byte → Byte) (s : State) :
    modifyOperand m f s =
      (let u := address true m s
       let old := busAnswer u.lat.ea u
       writeCycle u.lat.ea (f old) (writeCycle u.lat.ea old (setDATA old (readCycle u.lat.ea u)))) := rfl

theorem Progress.storeOperand (m : AddrMode) (v : Byte) (s : State) : Progress s (storeOperand m v s) :=
  (OperandPhase.address true m s).toProgress.trans (Progress.writeCycle _ _ _)

theorem Progress.modifyOperand (m : AddrMode) (f : Byte → Byte) (s : State) : Progress s (modifyOperand m f s) :=
  (((OperandPhase.address true m s).toProgress.trans (Progress.readTo pureDest_setDATA _ _)).trans
    (Progress.writeCycle _ _ _)).trans (Progress.writeCycle _ _ _)

/-! ## Entry and return -/

theorem Progress.loadVector (vec : Word) (s : State) : Progress s (loadVector vec s) :=
  ((Progress.readTo pureDest_setADL vec s).trans (Progress.readTo pureDest_setADH _ _)).trans (Progress.setPC _ _)

/-- Everything the shared entry of BRK, NMI and IRQ does to the registers and flags (R330, R407 to R410). -/
theorem enterHandler_regs (b d : Bool) (vec : Word) (s : State) :
    let t := enterHandler b d vec s
    t.a = s.a ∧ t.x = s.x ∧ t.y = s.y ∧ t.sp = s.sp - 3 ∧ t.cycles = s.cycles + 5 ∧
      t.flags = { s.flags with i := true, d := s.flags.d && !d } := by
  refine ⟨rfl, rfl, rfl, ?_, rfl, rfl⟩
  show s.sp - 1 - 1 - 1 = s.sp - 3
  generalize s.sp = v; revert v; decide

theorem Progress.enterHandler (b d : Bool) (vec : Word) (s : State) : Progress s (enterHandler b d vec s) := by
  unfold Machine.enterHandler
  exact ((((Progress.push _ s).trans (Progress.push _ _)).trans (Progress.push _ _)).trans
    (Progress.setFlags _ _)).trans (Progress.loadVector vec _)

theorem Progress.returnFromInterrupt (s : State) : Progress s (returnFromInterrupt s) := by
  unfold Machine.returnFromInterrupt
  exact ((((((Progress.readCycle s.pc s).trans (Progress.readCycle _ _)).trans (Progress.pullTo pureDest_setStatusBits _)).trans
    (Progress.pullTo pureDest_setADL _)).trans (Progress.pullTo pureDest_setADH _)).trans
    (Progress.setPC _ _)).trans (Progress.emit _ _)

theorem OperandPhase.takeBranch (s : State) : OperandPhase s (takeBranch s) := by
  unfold Machine.takeBranch
  dsimp only
  split
  · exact (OperandPhase.dummyRead _ s).trans (OperandPhase.setPC _ _)
  · exact ((OperandPhase.dummyRead _ s).trans (OperandPhase.dummyRead _ _)).trans (OperandPhase.setPC _ _)

theorem OperandPhase.afterBitOffset (s : State) : OperandPhase s (afterBitOffset s) :=
  (((OperandPhase.fetchTo latchDest_setADL s).trans (OperandPhase.readTo latchDest_setDATA _ _)).trans
    (OperandPhase.dummyRead _ _)).trans (OperandPhase.fetchTo latchDest_setOFF _)

/-! ## What execution of each shape answers: a next state, always -/

theorem loadInto_eq (put : Byte → State → State) (m : ReadMode) (s : State) :
    loadInto put m s = .next (endInstr (setNZ (loadOperand m s).lat.data (put (loadOperand m s).lat.data (loadOperand m s)))) :=
  rfl

theorem branchIf_eq (cond : Bool) (s : State) :
    branchIf cond s = .next (endInstr (if cond then takeBranch (afterOffset s) else afterOffset s)) := rfl

theorem branchOnBit_eq (n : Nat) (value : Bool) (s : State) :
    branchOnBit n value s =
      .next (endInstr (if (afterBitOffset s).lat.data.getLsbD n == value then takeBranch (afterBitOffset s)
        else afterBitOffset s)) := rfl

/-! ## Runs of several steps (R470) -/

@[simp] theorem stepTimes_zero (s : State) : stepTimes 0 s = .next s := rfl

theorem stepTimes_succ {s t : State} (h : step s = .next t) (n : Nat) : stepTimes (n + 1) s = stepTimes n t := by
  simp [stepTimes, h]

@[simp] theorem runBelow_zero (stop : State → Bool) (limit : Nat) (s : State) : runBelow stop limit 0 s = .next s := rfl

/-- At the limit the run ends where it is. -/
theorem runBelow_of_le {limit : Nat} {s : State} (h : limit ≤ s.cycles) (stop : State → Bool) (fuel : Nat) :
    runBelow stop limit (fuel + 1) s = .next s := by
  simp [runBelow, Nat.not_lt.mpr h]

/-- Below the limit one step runs, and the stop condition is asked after it. -/
theorem runBelow_of_lt {limit : Nat} {s t : State} (h : s.cycles < limit) (hs : step s = .next t) (stop : State → Bool)
    (fuel : Nat) :
    runBelow stop limit (fuel + 1) s = if stop t then .next t else runBelow stop limit fuel t := by
  simp [runBelow, h, hs]

end Sys2Proof.Machine
end

