-- ==== Sys2Proof/Laws/Frames.lean ====
section
/-! SUPPORT. The frame of the operand cycles field by field, as rewriting lemmas; what the shared entry of BRK, NMI and IRQ does
to memory, PC and the history. -/

namespace Sys2Proof.Machine

@[simp] theorem address_a (always : Bool) (m : AddrMode) (s : State) : (address always m s).a = s.a := (OperandPhase.address always m s).a
@[simp] theorem address_x (always : Bool) (m : AddrMode) (s : State) : (address always m s).x = s.x := (OperandPhase.address always m s).x
@[simp] theorem address_y (always : Bool) (m : AddrMode) (s : State) : (address always m s).y = s.y := (OperandPhase.address always m s).y
@[simp] theorem address_sp (always : Bool) (m : AddrMode) (s : State) : (address always m s).sp = s.sp := (OperandPhase.address always m s).sp
@[simp] theorem address_flags (always : Bool) (m : AddrMode) (s : State) : (address always m s).flags = s.flags := (OperandPhase.address always m s).flags
@[simp] theorem address_mem (always : Bool) (m : AddrMode) (s : State) : (address always m s).mem = s.mem := (OperandPhase.address always m s).mem
@[simp] theorem address_opcode (always : Bool) (m : AddrMode) (s : State) : (address always m s).opcode = s.opcode := (OperandPhase.address always m s).opcode
@[simp] theorem address_illegalSeen (always : Bool) (m : AddrMode) (s : State) : (address always m s).illegalSeen = s.illegalSeen := (OperandPhase.address always m s).illegalSeen
@[simp] theorem address_cfg (always : Bool) (m : AddrMode) (s : State) : (address always m s).cfg = s.cfg := (OperandPhase.address always m s).cfg
@[simp] theorem address_pendingNMI (always : Bool) (m : AddrMode) (s : State) : (address always m s).pendingNMI = s.pendingNMI := (OperandPhase.address always m s).nmi
@[simp] theorem address_pendingIRQ (always : Bool) (m : AddrMode) (s : State) : (address always m s).pendingIRQ = s.pendingIRQ := (OperandPhase.address always m s).irq

@[simp] theorem loadOperand_a (m : ReadMode) (s : State) : (loadOperand m s).a = s.a := (OperandPhase.loadOperand m s).a
@[simp] theorem loadOperand_x (m : ReadMode) (s : State) : (loadOperand m s).x = s.x := (OperandPhase.loadOperand m s).x
@[simp] theorem loadOperand_y (m : ReadMode) (s : State) : (loadOperand m s).y = s.y := (OperandPhase.loadOperand m s).y
@[simp] theorem loadOperand_sp (m : ReadMode) (s : State) : (loadOperand m s).sp = s.sp := (OperandPhase.loadOperand m s).sp
@[simp] theorem loadOperand_flags (m : ReadMode) (s : State) : (loadOperand m s).flags = s.flags := (OperandPhase.loadOperand m s).flags
@[simp] theorem loadOperand_mem (m : ReadMode) (s : State) : (loadOperand m s).mem = s.mem := (OperandPhase.loadOperand m s).mem
@[simp] theorem loadOperand_opcode (m : ReadMode) (s : State) : (loadOperand m s).opcode = s.opcode := (OperandPhase.loadOperand m s).opcode
@[simp] theorem loadOperand_illegalSeen (m : ReadMode) (s : State) : (loadOperand m s).illegalSeen = s.illegalSeen := (OperandPhase.loadOperand m s).illegalSeen
@[simp] theorem loadOperand_cfg (m : ReadMode) (s : State) : (loadOperand m s).cfg = s.cfg := (OperandPhase.loadOperand m s).cfg
@[simp] theorem loadOperand_pendingNMI (m : ReadMode) (s : State) : (loadOperand m s).pendingNMI = s.pendingNMI := (OperandPhase.loadOperand m s).nmi
@[simp] theorem loadOperand_pendingIRQ (m : ReadMode) (s : State) : (loadOperand m s).pendingIRQ = s.pendingIRQ := (OperandPhase.loadOperand m s).irq

@[simp] theorem takeBranch_a (s : State) : (takeBranch s).a = s.a := (OperandPhase.takeBranch s).a
@[simp] theorem takeBranch_x (s : State) : (takeBranch s).x = s.x := (OperandPhase.takeBranch s).x
@[simp] theorem takeBranch_y (s : State) : (takeBranch s).y = s.y := (OperandPhase.takeBranch s).y
@[simp] theorem takeBranch_sp (s : State) : (takeBranch s).sp = s.sp := (OperandPhase.takeBranch s).sp
@[simp] theorem takeBranch_flags (s : State) : (takeBranch s).flags = s.flags := (OperandPhase.takeBranch s).flags
@[simp] theorem takeBranch_mem (s : State) : (takeBranch s).mem = s.mem := (OperandPhase.takeBranch s).mem
@[simp] theorem takeBranch_opcode (s : State) : (takeBranch s).opcode = s.opcode := (OperandPhase.takeBranch s).opcode
@[simp] theorem takeBranch_illegalSeen (s : State) : (takeBranch s).illegalSeen = s.illegalSeen := (OperandPhase.takeBranch s).illegalSeen
@[simp] theorem takeBranch_cfg (s : State) : (takeBranch s).cfg = s.cfg := (OperandPhase.takeBranch s).cfg
@[simp] theorem takeBranch_pendingNMI (s : State) : (takeBranch s).pendingNMI = s.pendingNMI := (OperandPhase.takeBranch s).nmi
@[simp] theorem takeBranch_pendingIRQ (s : State) : (takeBranch s).pendingIRQ = s.pendingIRQ := (OperandPhase.takeBranch s).irq

@[simp] theorem afterBitOffset_a (s : State) : (afterBitOffset s).a = s.a := (OperandPhase.afterBitOffset s).a
@[simp] theorem afterBitOffset_x (s : State) : (afterBitOffset s).x = s.x := (OperandPhase.afterBitOffset s).x
@[simp] theorem afterBitOffset_y (s : State) : (afterBitOffset s).y = s.y := (OperandPhase.afterBitOffset s).y
@[simp] theorem afterBitOffset_sp (s : State) : (afterBitOffset s).sp = s.sp := (OperandPhase.afterBitOffset s).sp
@[simp] theorem afterBitOffset_flags (s : State) : (afterBitOffset s).flags = s.flags := (OperandPhase.afterBitOffset s).flags
@[simp] theorem afterBitOffset_mem (s : State) : (afterBitOffset s).mem = s.mem := (OperandPhase.afterBitOffset s).mem
@[simp] theorem afterBitOffset_opcode (s : State) : (afterBitOffset s).opcode = s.opcode := (OperandPhase.afterBitOffset s).opcode
@[simp] theorem afterBitOffset_illegalSeen (s : State) : (afterBitOffset s).illegalSeen = s.illegalSeen := (OperandPhase.afterBitOffset s).illegalSeen
@[simp] theorem afterBitOffset_cfg (s : State) : (afterBitOffset s).cfg = s.cfg := (OperandPhase.afterBitOffset s).cfg
@[simp] theorem afterBitOffset_pendingNMI (s : State) : (afterBitOffset s).pendingNMI = s.pendingNMI := (OperandPhase.afterBitOffset s).nmi
@[simp] theorem afterBitOffset_pendingIRQ (s : State) : (afterBitOffset s).pendingIRQ = s.pendingIRQ := (OperandPhase.afterBitOffset s).irq

@[simp] theorem storeOperand_a (m : AddrMode) (v : Byte) (s : State) : (storeOperand m v s).a = s.a := (OperandPhase.address true m s).a
@[simp] theorem storeOperand_x (m : AddrMode) (v : Byte) (s : State) : (storeOperand m v s).x = s.x := (OperandPhase.address true m s).x
@[simp] theorem storeOperand_y (m : AddrMode) (v : Byte) (s : State) : (storeOperand m v s).y = s.y := (OperandPhase.address true m s).y
@[simp] theorem storeOperand_sp (m : AddrMode) (v : Byte) (s : State) : (storeOperand m v s).sp = s.sp := (OperandPhase.address true m s).sp
@[simp] theorem storeOperand_flags (m : AddrMode) (v : Byte) (s : State) : (storeOperand m v s).flags = s.flags := (OperandPhase.address true m s).flags
@[simp] theorem storeOperand_opcode (m : AddrMode) (v : Byte) (s : State) : (storeOperand m v s).opcode = s.opcode := (OperandPhase.address true m s).opcode
@[simp] theorem storeOperand_illegalSeen (m : AddrMode) (v : Byte) (s : State) : (storeOperand m v s).illegalSeen = s.illegalSeen := (OperandPhase.address true m s).illegalSeen
@[simp] theorem storeOperand_cfg (m : AddrMode) (v : Byte) (s : State) : (storeOperand m v s).cfg = s.cfg := (OperandPhase.address true m s).cfg
@[simp] theorem storeOperand_pendingNMI (m : AddrMode) (v : Byte) (s : State) : (storeOperand m v s).pendingNMI = s.pendingNMI := (OperandPhase.address true m s).nmi
@[simp] theorem storeOperand_pendingIRQ (m : AddrMode) (v : Byte) (s : State) : (storeOperand m v s).pendingIRQ = s.pendingIRQ := (OperandPhase.address true m s).irq

@[simp] theorem modifyOperand_a (m : AddrMode) (f : Byte → Byte) (s : State) : (modifyOperand m f s).a = s.a := (OperandPhase.address true m s).a
@[simp] theorem modifyOperand_x (m : AddrMode) (f : Byte → Byte) (s : State) : (modifyOperand m f s).x = s.x := (OperandPhase.address true m s).x
@[simp] theorem modifyOperand_y (m : AddrMode) (f : Byte → Byte) (s : State) : (modifyOperand m f s).y = s.y := (OperandPhase.address true m s).y
@[simp] theorem modifyOperand_sp (m : AddrMode) (f : Byte → Byte) (s : State) : (modifyOperand m f s).sp = s.sp := (OperandPhase.address true m s).sp
@[simp] theorem modifyOperand_flags (m : AddrMode) (f : Byte → Byte) (s : State) : (modifyOperand m f s).flags = s.flags := (OperandPhase.address true m s).flags
@[simp] theorem modifyOperand_opcode (m : AddrMode) (f : Byte → Byte) (s : State) : (modifyOperand m f s).opcode = s.opcode := (OperandPhase.address true m s).opcode
@[simp] theorem modifyOperand_illegalSeen (m : AddrMode) (f : Byte → Byte) (s : State) : (modifyOperand m f s).illegalSeen = s.illegalSeen := (OperandPhase.address true m s).illegalSeen
@[simp] theorem modifyOperand_cfg (m : AddrMode) (f : Byte → Byte) (s : State) : (modifyOperand m f s).cfg = s.cfg := (OperandPhase.address true m s).cfg
@[simp] theorem modifyOperand_pendingNMI (m : AddrMode) (f : Byte → Byte) (s : State) : (modifyOperand m f s).pendingNMI = s.pendingNMI := (OperandPhase.address true m s).nmi
@[simp] theorem modifyOperand_pendingIRQ (m : AddrMode) (f : Byte → Byte) (s : State) : (modifyOperand m f s).pendingIRQ = s.pendingIRQ := (OperandPhase.address true m s).irq

@[simp] theorem enterHandler_a (b d : Bool) (vec : Word) (s : State) : (enterHandler b d vec s).a = s.a := rfl
@[simp] theorem enterHandler_x (b d : Bool) (vec : Word) (s : State) : (enterHandler b d vec s).x = s.x := rfl
@[simp] theorem enterHandler_y (b d : Bool) (vec : Word) (s : State) : (enterHandler b d vec s).y = s.y := rfl
@[simp] theorem enterHandler_opcode (b d : Bool) (vec : Word) (s : State) : (enterHandler b d vec s).opcode = s.opcode := rfl
@[simp] theorem enterHandler_illegalSeen (b d : Bool) (vec : Word) (s : State) :
    (enterHandler b d vec s).illegalSeen = s.illegalSeen := rfl
@[simp] theorem enterHandler_cfg (b d : Bool) (vec : Word) (s : State) : (enterHandler b d vec s).cfg = s.cfg := rfl
@[simp] theorem enterHandler_pendingNMI (b d : Bool) (vec : Word) (s : State) :
    (enterHandler b d vec s).pendingNMI = s.pendingNMI := rfl
@[simp] theorem enterHandler_pendingIRQ (b d : Bool) (vec : Word) (s : State) :
    (enterHandler b d vec s).pendingIRQ = s.pendingIRQ := rfl
@[simp] theorem enterHandler_cycles (b d : Bool) (vec : Word) (s : State) : (enterHandler b d vec s).cycles = s.cycles + 5 := rfl

@[simp] theorem clearLatch_illegalSeen (k : Interrupt) (s : State) : (clearLatch k s).illegalSeen = s.illegalSeen := by
  cases k <;> rfl
@[simp] theorem clearLatch_cfg (k : Interrupt) (s : State) : (clearLatch k s).cfg = s.cfg := by cases k <;> rfl
@[simp] theorem clearLatch_mem (k : Interrupt) (s : State) : (clearLatch k s).mem = s.mem := by cases k <;> rfl
@[simp] theorem clearLatch_cycles (k : Interrupt) (s : State) : (clearLatch k s).cycles = s.cycles := by cases k <;> rfl
@[simp] theorem clearLatch_history (k : Interrupt) (s : State) : (clearLatch k s).history = s.history := by cases k <;> rfl

/-- An interrupt sequence is the entry after its two reads at PC and the clearing of its latch. -/
theorem takeInterrupt_eq (k : Interrupt) (s : State) :
    takeInterrupt k s = endInstr (enterHandler s.cfg.hwIntPushedB (interruptClearsD s.cfg) (interruptVector k)
      (readCycle s.pc (clearLatch k (setOpcode (busAnswer s.pc s) (readCycle s.pc s))))) := by
  cases k <;> rfl

@[simp] theorem takeInterrupt_cfg (k : Interrupt) (s : State) : (takeInterrupt k s).cfg = s.cfg := by simp [takeInterrupt_eq]
@[simp] theorem takeInterrupt_illegalSeen (k : Interrupt) (s : State) :
    (takeInterrupt k s).illegalSeen = s.illegalSeen := by simp [takeInterrupt_eq]
@[simp] theorem takeInterrupt_t (k : Interrupt) (s : State) : (takeInterrupt k s).t = 0 := rfl
@[simp] theorem takeInterrupt_cycles (k : Interrupt) (s : State) : (takeInterrupt k s).cycles = s.cycles + 7 := by
  simp [takeInterrupt_eq]

/-- The answer of the bus depends on the configuration, the byte memory holds there, the history and the cycle counter alone. -/
theorem busAnswer_congr {s u : State} {addr : Word} (hc : u.cfg = s.cfg)
    (hm : Memory.get u.mem addr.toNat = Memory.get s.mem addr.toNat) (hh : u.history = s.history) (hcy : u.cycles = s.cycles) :
    busAnswer addr u = busAnswer addr s := by
  unfold busAnswer State.isRam
  rw [hc, hm, hh, hcy]

/-- Three consecutive stack addresses differ, and lie below the vectors. -/
theorem stackAddr_distinct (b : Byte) :
    (stackAddr b).toNat ≠ (stackAddr (b - 1)).toNat ∧ (stackAddr b).toNat ≠ (stackAddr (b - 2)).toNat ∧
      (stackAddr (b - 1)).toNat ≠ (stackAddr (b - 2)).toNat ∧ (stackAddr b).toNat < 0x200 := by
  revert b; decide

theorem sub_one_sub_one (b : Byte) : b - 1 - 1 = b - 2 := by revert b; decide

theorem sub_two_sub_one (b : Byte) : b - 2 - 1 = b - 3 := by revert b; decide

/-- The state after the three pushes of an entry: PC high, PC low, the status byte. -/
def pushFrame (b : Bool) (s : State) : State :=
  push (pushedStatus b s.flags) (push (loByte s.pc) (push (hiByte s.pc) s))

theorem pushFrame_history (b : Bool) (s : State) :
    (pushFrame b s).history = .write (stackAddr (s.sp - 2)) (pushedStatus b s.flags) (s.cycles + 2) ::
      .write (stackAddr (s.sp - 1)) (loByte s.pc) (s.cycles + 1) :: .write (stackAddr s.sp) (hiByte s.pc) s.cycles ::
      s.history := by
  simp only [pushFrame, push_history, push_sp, push_cycles, sub_one_sub_one]

/-- What three pushes do to every byte of memory. -/
theorem pushFrame_get {s : State} (h : Memory.wf s.mem = true) (b : Bool) (n : Nat) :
    Memory.get (pushFrame b s).mem n =
      if n = (stackAddr (s.sp - 2)).toNat ∧ s.isRam (stackAddr (s.sp - 2)) = true then pushedStatus b s.flags
      else if n = (stackAddr (s.sp - 1)).toNat ∧ s.isRam (stackAddr (s.sp - 1)) = true then loByte s.pc
      else if n = (stackAddr s.sp).toNat ∧ s.isRam (stackAddr s.sp) = true then hiByte s.pc
      else Memory.get s.mem n := by
  have e1 := writeCycle_get h (stackAddr s.sp) (hiByte s.pc) n
  have e2 := writeCycle_get (push_wf h (hiByte s.pc)) (stackAddr (s.sp - 1)) (loByte s.pc) n
  have e3 := writeCycle_get (push_wf (push_wf h (hiByte s.pc)) (loByte s.pc)) (stackAddr (s.sp - 1 - 1))
    (pushedStatus b s.flags) n
  have r : (pushFrame b s).mem = (writeCycle (stackAddr (s.sp - 1 - 1)) (pushedStatus b s.flags)
    (push (loByte s.pc) (push (hiByte s.pc) s))).mem := rfl
  rw [r, e3, sub_one_sub_one]
  congr 1
  exact e2.trans (by congr 1)

theorem enterHandler_eq (b d : Bool) (vec : Word) (s : State) :
    enterHandler b d vec s =
      loadVector vec { pushFrame b s with flags := { s.flags with i := true, d := s.flags.d && !d } } := rfl

theorem loadVector_history (vec : Word) (s : State) :
    (loadVector vec s).history = .read (vec + 1) (s.cycles + 1) :: .read vec s.cycles :: s.history := rfl

theorem loadVector_pc (vec : Word) (s : State) :
    (loadVector vec s).pc = word (busAnswer (vec + 1) (readCycle vec s)) (busAnswer vec s) := rfl

@[simp] theorem loadVector_mem (vec : Word) (s : State) : (loadVector vec s).mem = s.mem := rfl

@[simp] theorem enterHandler_mem (b d : Bool) (vec : Word) (s : State) :
    (enterHandler b d vec s).mem = (pushFrame b s).mem := rfl

theorem enterHandler_history (b d : Bool) (vec : Word) (s : State) :
    (enterHandler b d vec s).history =
      .read (vec + 1) (s.cycles + 4) :: .read vec (s.cycles + 3) :: (pushFrame b s).history := rfl

end Sys2Proof.Machine
end

