-- ==== Sys2Proof/Laws/PerInstr.lean ====
section
/-! SUPPORT. Statements about every instruction as syntax, one lemma per constructor. -/

namespace Sys2Proof.Laws

/-- The descriptor's numbers are those a table may hold (R101, R108): 1 to 3 bytes, at least one cycle, and the operand bytes of
the format fit the length. -/
def DescriptorRange.Statement (i : Instr) : Prop :=
  ∀ c : Config, 1 ≤ i.byteLength c ∧ i.byteLength c ≤ 3 ∧ 1 ≤ i.baseCycles c ∧ i.format.operandBytes + 1 ≤ i.byteLength c

/-- Every instruction but the stub: its length is one more than its format's operand bytes. -/
theorem DescriptorRange.of_format {i : Instr} (hl : ∀ c, i.byteLength c = 1 + i.format.operandBytes)
    (hf : Nat.ble i.format.operandBytes 2 = true) (hc : ∀ c, Nat.ble 1 (i.baseCycles c) = true) :
    DescriptorRange.Statement i := fun c => by
  have hf := Nat.le_of_ble_eq_true hf
  have hc := Nat.le_of_ble_eq_true (hc c)
  have hl := hl c
  omega

theorem DescriptorRange.mem_ok (m : AddrMode) :
    Nat.ble m.format.operandBytes 2 = true ∧ Nat.ble 1 m.writeCycles = true ∧ Nat.ble 1 m.modifyCycles = true := by
  cases m <;> decide

theorem DescriptorRange.read_ok (m : ReadMode) : Nat.ble m.format.operandBytes 2 = true ∧ Nat.ble 1 m.cycles = true := by
  rcases m with _ | m
  · decide
  · cases m <;> decide

theorem DescriptorRange.rmw_ok (m : RmwMode) : Nat.ble m.format.operandBytes 2 = true ∧ Nat.ble 1 m.cycles = true := by
  rcases m with _ | m
  · decide
  · cases m <;> decide

theorem DescriptorRange.lda (m : ReadMode) : DescriptorRange.Statement (.lda m) :=
  DescriptorRange.of_format (fun _ => rfl) (DescriptorRange.read_ok m).1 (fun _ => (DescriptorRange.read_ok m).2)
theorem DescriptorRange.ldx (m : ReadMode) : DescriptorRange.Statement (.ldx m) :=
  DescriptorRange.of_format (fun _ => rfl) (DescriptorRange.read_ok m).1 (fun _ => (DescriptorRange.read_ok m).2)
theorem DescriptorRange.ldy (m : ReadMode) : DescriptorRange.Statement (.ldy m) :=
  DescriptorRange.of_format (fun _ => rfl) (DescriptorRange.read_ok m).1 (fun _ => (DescriptorRange.read_ok m).2)
theorem DescriptorRange.sta (m : AddrMode) : DescriptorRange.Statement (.sta m) :=
  DescriptorRange.of_format (fun _ => rfl) (DescriptorRange.mem_ok m).1 (fun _ => (DescriptorRange.mem_ok m).2.1)
theorem DescriptorRange.stx (m : AddrMode) : DescriptorRange.Statement (.stx m) :=
  DescriptorRange.of_format (fun _ => rfl) (DescriptorRange.mem_ok m).1 (fun _ => (DescriptorRange.mem_ok m).2.1)
theorem DescriptorRange.sty (m : AddrMode) : DescriptorRange.Statement (.sty m) :=
  DescriptorRange.of_format (fun _ => rfl) (DescriptorRange.mem_ok m).1 (fun _ => (DescriptorRange.mem_ok m).2.1)
theorem DescriptorRange.stz (m : AddrMode) : DescriptorRange.Statement (.stz m) :=
  DescriptorRange.of_format (fun _ => rfl) (DescriptorRange.mem_ok m).1 (fun _ => (DescriptorRange.mem_ok m).2.1)
theorem DescriptorRange.tax : DescriptorRange.Statement .tax := DescriptorRange.of_format (fun _ => rfl) rfl (fun _ => rfl)
theorem DescriptorRange.tay : DescriptorRange.Statement .tay := DescriptorRange.of_format (fun _ => rfl) rfl (fun _ => rfl)
theorem DescriptorRange.txa : DescriptorRange.Statement .txa := DescriptorRange.of_format (fun _ => rfl) rfl (fun _ => rfl)
theorem DescriptorRange.tya : DescriptorRange.Statement .tya := DescriptorRange.of_format (fun _ => rfl) rfl (fun _ => rfl)
theorem DescriptorRange.tsx : DescriptorRange.Statement .tsx := DescriptorRange.of_format (fun _ => rfl) rfl (fun _ => rfl)
theorem DescriptorRange.txs : DescriptorRange.Statement .txs := DescriptorRange.of_format (fun _ => rfl) rfl (fun _ => rfl)
theorem DescriptorRange.adc (m : ReadMode) : DescriptorRange.Statement (.adc m) :=
  DescriptorRange.of_format (fun _ => rfl) (DescriptorRange.read_ok m).1 (fun _ => (DescriptorRange.read_ok m).2)
theorem DescriptorRange.sbc (m : ReadMode) : DescriptorRange.Statement (.sbc m) :=
  DescriptorRange.of_format (fun _ => rfl) (DescriptorRange.read_ok m).1 (fun _ => (DescriptorRange.read_ok m).2)
theorem DescriptorRange.cmp (m : ReadMode) : DescriptorRange.Statement (.cmp m) :=
  DescriptorRange.of_format (fun _ => rfl) (DescriptorRange.read_ok m).1 (fun _ => (DescriptorRange.read_ok m).2)
theorem DescriptorRange.cpx (m : ReadMode) : DescriptorRange.Statement (.cpx m) :=
  DescriptorRange.of_format (fun _ => rfl) (DescriptorRange.read_ok m).1 (fun _ => (DescriptorRange.read_ok m).2)
theorem DescriptorRange.cpy (m : ReadMode) : DescriptorRange.Statement (.cpy m) :=
  DescriptorRange.of_format (fun _ => rfl) (DescriptorRange.read_ok m).1 (fun _ => (DescriptorRange.read_ok m).2)
theorem DescriptorRange.inc (m : RmwMode) : DescriptorRange.Statement (.inc m) :=
  DescriptorRange.of_format (fun _ => rfl) (DescriptorRange.rmw_ok m).1 (fun _ => (DescriptorRange.rmw_ok m).2)
theorem DescriptorRange.dec (m : RmwMode) : DescriptorRange.Statement (.dec m) :=
  DescriptorRange.of_format (fun _ => rfl) (DescriptorRange.rmw_ok m).1 (fun _ => (DescriptorRange.rmw_ok m).2)
theorem DescriptorRange.inx : DescriptorRange.Statement .inx := DescriptorRange.of_format (fun _ => rfl) rfl (fun _ => rfl)
theorem DescriptorRange.iny : DescriptorRange.Statement .iny := DescriptorRange.of_format (fun _ => rfl) rfl (fun _ => rfl)
theorem DescriptorRange.dex : DescriptorRange.Statement .dex := DescriptorRange.of_format (fun _ => rfl) rfl (fun _ => rfl)
theorem DescriptorRange.dey : DescriptorRange.Statement .dey := DescriptorRange.of_format (fun _ => rfl) rfl (fun _ => rfl)
theorem DescriptorRange.and (m : ReadMode) : DescriptorRange.Statement (.and m) :=
  DescriptorRange.of_format (fun _ => rfl) (DescriptorRange.read_ok m).1 (fun _ => (DescriptorRange.read_ok m).2)
theorem DescriptorRange.ora (m : ReadMode) : DescriptorRange.Statement (.ora m) :=
  DescriptorRange.of_format (fun _ => rfl) (DescriptorRange.read_ok m).1 (fun _ => (DescriptorRange.read_ok m).2)
theorem DescriptorRange.eor (m : ReadMode) : DescriptorRange.Statement (.eor m) :=
  DescriptorRange.of_format (fun _ => rfl) (DescriptorRange.read_ok m).1 (fun _ => (DescriptorRange.read_ok m).2)
theorem DescriptorRange.bit (m : ReadMode) : DescriptorRange.Statement (.bit m) :=
  DescriptorRange.of_format (fun _ => rfl) (DescriptorRange.read_ok m).1 (fun _ => (DescriptorRange.read_ok m).2)
theorem DescriptorRange.asl (m : RmwMode) : DescriptorRange.Statement (.asl m) :=
  DescriptorRange.of_format (fun _ => rfl) (DescriptorRange.rmw_ok m).1 (fun _ => (DescriptorRange.rmw_ok m).2)
theorem DescriptorRange.lsr (m : RmwMode) : DescriptorRange.Statement (.lsr m) :=
  DescriptorRange.of_format (fun _ => rfl) (DescriptorRange.rmw_ok m).1 (fun _ => (DescriptorRange.rmw_ok m).2)
theorem DescriptorRange.rol (m : RmwMode) : DescriptorRange.Statement (.rol m) :=
  DescriptorRange.of_format (fun _ => rfl) (DescriptorRange.rmw_ok m).1 (fun _ => (DescriptorRange.rmw_ok m).2)
theorem DescriptorRange.ror (m : RmwMode) : DescriptorRange.Statement (.ror m) :=
  DescriptorRange.of_format (fun _ => rfl) (DescriptorRange.rmw_ok m).1 (fun _ => (DescriptorRange.rmw_ok m).2)
theorem DescriptorRange.tsb (m : AddrMode) : DescriptorRange.Statement (.tsb m) :=
  DescriptorRange.of_format (fun _ => rfl) (DescriptorRange.mem_ok m).1 (fun _ => (DescriptorRange.mem_ok m).2.2)
theorem DescriptorRange.trb (m : AddrMode) : DescriptorRange.Statement (.trb m) :=
  DescriptorRange.of_format (fun _ => rfl) (DescriptorRange.mem_ok m).1 (fun _ => (DescriptorRange.mem_ok m).2.2)
theorem DescriptorRange.rmb0 : DescriptorRange.Statement .rmb0 := DescriptorRange.of_format (fun _ => rfl) rfl (fun _ => rfl)
theorem DescriptorRange.rmb1 : DescriptorRange.Statement .rmb1 := DescriptorRange.of_format (fun _ => rfl) rfl (fun _ => rfl)
theorem DescriptorRange.rmb2 : DescriptorRange.Statement .rmb2 := DescriptorRange.of_format (fun _ => rfl) rfl (fun _ => rfl)
theorem DescriptorRange.rmb3 : DescriptorRange.Statement .rmb3 := DescriptorRange.of_format (fun _ => rfl) rfl (fun _ => rfl)
theorem DescriptorRange.rmb4 : DescriptorRange.Statement .rmb4 := DescriptorRange.of_format (fun _ => rfl) rfl (fun _ => rfl)
theorem DescriptorRange.rmb5 : DescriptorRange.Statement .rmb5 := DescriptorRange.of_format (fun _ => rfl) rfl (fun _ => rfl)
theorem DescriptorRange.rmb6 : DescriptorRange.Statement .rmb6 := DescriptorRange.of_format (fun _ => rfl) rfl (fun _ => rfl)
theorem DescriptorRange.rmb7 : DescriptorRange.Statement .rmb7 := DescriptorRange.of_format (fun _ => rfl) rfl (fun _ => rfl)
theorem DescriptorRange.smb0 : DescriptorRange.Statement .smb0 := DescriptorRange.of_format (fun _ => rfl) rfl (fun _ => rfl)
theorem DescriptorRange.smb1 : DescriptorRange.Statement .smb1 := DescriptorRange.of_format (fun _ => rfl) rfl (fun _ => rfl)
theorem DescriptorRange.smb2 : DescriptorRange.Statement .smb2 := DescriptorRange.of_format (fun _ => rfl) rfl (fun _ => rfl)
theorem DescriptorRange.smb3 : DescriptorRange.Statement .smb3 := DescriptorRange.of_format (fun _ => rfl) rfl (fun _ => rfl)
theorem DescriptorRange.smb4 : DescriptorRange.Statement .smb4 := DescriptorRange.of_format (fun _ => rfl) rfl (fun _ => rfl)
theorem DescriptorRange.smb5 : DescriptorRange.Statement .smb5 := DescriptorRange.of_format (fun _ => rfl) rfl (fun _ => rfl)
theorem DescriptorRange.smb6 : DescriptorRange.Statement .smb6 := DescriptorRange.of_format (fun _ => rfl) rfl (fun _ => rfl)
theorem DescriptorRange.smb7 : DescriptorRange.Statement .smb7 := DescriptorRange.of_format (fun _ => rfl) rfl (fun _ => rfl)
theorem DescriptorRange.bcc : DescriptorRange.Statement .bcc := DescriptorRange.of_format (fun _ => rfl) rfl (fun _ => rfl)
theorem DescriptorRange.bcs : DescriptorRange.Statement .bcs := DescriptorRange.of_format (fun _ => rfl) rfl (fun _ => rfl)
theorem DescriptorRange.beq : DescriptorRange.Statement .beq := DescriptorRange.of_format (fun _ => rfl) rfl (fun _ => rfl)
theorem DescriptorRange.bne : DescriptorRange.Statement .bne := DescriptorRange.of_format (fun _ => rfl) rfl (fun _ => rfl)
theorem DescriptorRange.bmi : DescriptorRange.Statement .bmi := DescriptorRange.of_format (fun _ => rfl) rfl (fun _ => rfl)
theorem DescriptorRange.bpl : DescriptorRange.Statement .bpl := DescriptorRange.of_format (fun _ => rfl) rfl (fun _ => rfl)
theorem DescriptorRange.bvc : DescriptorRange.Statement .bvc := DescriptorRange.of_format (fun _ => rfl) rfl (fun _ => rfl)
theorem DescriptorRange.bvs : DescriptorRange.Statement .bvs := DescriptorRange.of_format (fun _ => rfl) rfl (fun _ => rfl)
theorem DescriptorRange.bra : DescriptorRange.Statement .bra := DescriptorRange.of_format (fun _ => rfl) rfl (fun _ => rfl)
theorem DescriptorRange.jmp (m : JmpMode) : DescriptorRange.Statement (.jmp m) := by
  cases m
  · exact DescriptorRange.of_format (fun _ => rfl) rfl (fun _ => rfl)
  · refine DescriptorRange.of_format (fun _ => rfl) rfl (fun c => ?_)
    simp only [Instr.baseCycles]
    split <;> rfl
  · exact DescriptorRange.of_format (fun _ => rfl) rfl (fun _ => rfl)
theorem DescriptorRange.jsr : DescriptorRange.Statement .jsr := DescriptorRange.of_format (fun _ => rfl) rfl (fun _ => rfl)
theorem DescriptorRange.rts : DescriptorRange.Statement .rts := DescriptorRange.of_format (fun _ => rfl) rfl (fun _ => rfl)
theorem DescriptorRange.rti : DescriptorRange.Statement .rti := DescriptorRange.of_format (fun _ => rfl) rfl (fun _ => rfl)
theorem DescriptorRange.bbr0 : DescriptorRange.Statement .bbr0 := DescriptorRange.of_format (fun _ => rfl) rfl (fun _ => rfl)
theorem DescriptorRange.bbr1 : DescriptorRange.Statement .bbr1 := DescriptorRange.of_format (fun _ => rfl) rfl (fun _ => rfl)
theorem DescriptorRange.bbr2 : DescriptorRange.Statement .bbr2 := DescriptorRange.of_format (fun _ => rfl) rfl (fun _ => rfl)
theorem DescriptorRange.bbr3 : DescriptorRange.Statement .bbr3 := DescriptorRange.of_format (fun _ => rfl) rfl (fun _ => rfl)
theorem DescriptorRange.bbr4 : DescriptorRange.Statement .bbr4 := DescriptorRange.of_format (fun _ => rfl) rfl (fun _ => rfl)
theorem DescriptorRange.bbr5 : DescriptorRange.Statement .bbr5 := DescriptorRange.of_format (fun _ => rfl) rfl (fun _ => rfl)
theorem DescriptorRange.bbr6 : DescriptorRange.Statement .bbr6 := DescriptorRange.of_format (fun _ => rfl) rfl (fun _ => rfl)
theorem DescriptorRange.bbr7 : DescriptorRange.Statement .bbr7 := DescriptorRange.of_format (fun _ => rfl) rfl (fun _ => rfl)
theorem DescriptorRange.bbs0 : DescriptorRange.Statement .bbs0 := DescriptorRange.of_format (fun _ => rfl) rfl (fun _ => rfl)
theorem DescriptorRange.bbs1 : DescriptorRange.Statement .bbs1 := DescriptorRange.of_format (fun _ => rfl) rfl (fun _ => rfl)
theorem DescriptorRange.bbs2 : DescriptorRange.Statement .bbs2 := DescriptorRange.of_format (fun _ => rfl) rfl (fun _ => rfl)
theorem DescriptorRange.bbs3 : DescriptorRange.Statement .bbs3 := DescriptorRange.of_format (fun _ => rfl) rfl (fun _ => rfl)
theorem DescriptorRange.bbs4 : DescriptorRange.Statement .bbs4 := DescriptorRange.of_format (fun _ => rfl) rfl (fun _ => rfl)
theorem DescriptorRange.bbs5 : DescriptorRange.Statement .bbs5 := DescriptorRange.of_format (fun _ => rfl) rfl (fun _ => rfl)
theorem DescriptorRange.bbs6 : DescriptorRange.Statement .bbs6 := DescriptorRange.of_format (fun _ => rfl) rfl (fun _ => rfl)
theorem DescriptorRange.bbs7 : DescriptorRange.Statement .bbs7 := DescriptorRange.of_format (fun _ => rfl) rfl (fun _ => rfl)
theorem DescriptorRange.brk : DescriptorRange.Statement .brk := DescriptorRange.of_format (fun _ => rfl) rfl (fun _ => rfl)
theorem DescriptorRange.pha : DescriptorRange.Statement .pha := DescriptorRange.of_format (fun _ => rfl) rfl (fun _ => rfl)
theorem DescriptorRange.php : DescriptorRange.Statement .php := DescriptorRange.of_format (fun _ => rfl) rfl (fun _ => rfl)
theorem DescriptorRange.phx : DescriptorRange.Statement .phx := DescriptorRange.of_format (fun _ => rfl) rfl (fun _ => rfl)
theorem DescriptorRange.phy : DescriptorRange.Statement .phy := DescriptorRange.of_format (fun _ => rfl) rfl (fun _ => rfl)
theorem DescriptorRange.pla : DescriptorRange.Statement .pla := DescriptorRange.of_format (fun _ => rfl) rfl (fun _ => rfl)
theorem DescriptorRange.plp : DescriptorRange.Statement .plp := DescriptorRange.of_format (fun _ => rfl) rfl (fun _ => rfl)
theorem DescriptorRange.plx : DescriptorRange.Statement .plx := DescriptorRange.of_format (fun _ => rfl) rfl (fun _ => rfl)
theorem DescriptorRange.ply : DescriptorRange.Statement .ply := DescriptorRange.of_format (fun _ => rfl) rfl (fun _ => rfl)
theorem DescriptorRange.clc : DescriptorRange.Statement .clc := DescriptorRange.of_format (fun _ => rfl) rfl (fun _ => rfl)
theorem DescriptorRange.sec : DescriptorRange.Statement .sec := DescriptorRange.of_format (fun _ => rfl) rfl (fun _ => rfl)
theorem DescriptorRange.cli : DescriptorRange.Statement .cli := DescriptorRange.of_format (fun _ => rfl) rfl (fun _ => rfl)
theorem DescriptorRange.sei : DescriptorRange.Statement .sei := DescriptorRange.of_format (fun _ => rfl) rfl (fun _ => rfl)
theorem DescriptorRange.cld : DescriptorRange.Statement .cld := DescriptorRange.of_format (fun _ => rfl) rfl (fun _ => rfl)
theorem DescriptorRange.sed : DescriptorRange.Statement .sed := DescriptorRange.of_format (fun _ => rfl) rfl (fun _ => rfl)
theorem DescriptorRange.clv : DescriptorRange.Statement .clv := DescriptorRange.of_format (fun _ => rfl) rfl (fun _ => rfl)
theorem DescriptorRange.nop (f : NopForm) : DescriptorRange.Statement (.nop f) := by
  cases f <;> exact DescriptorRange.of_format (fun _ => rfl) rfl (fun _ => rfl)
theorem DescriptorRange.illegal (op : Byte) : DescriptorRange.Statement (.illegal op) := fun c => by
  have h := (c.illegalRow op).operandBytes.isLt
  simp only [Instr.byteLength, Instr.baseCycles, Instr.format, Format.operandBytes]
  omega

end Sys2Proof.Laws
end

