-- ==== Sys2Proof/Laws/Reset.lean ====
section
/-! SUPPORT. The state after reset is the host's reset of a constructed core, with zero draws. -/

namespace Sys2Proof.Machine

/-- The draws `State.reset` stands for: all zero (log 3). -/
def zeroDraws : ResetDraws where
  a := 0
  x := 0
  y := 0
  sp := 0
  flags := Flags.zero

theorem reset_eq_hostReset :
    hostReset zeroDraws (State.constructed (Config.default .cmos65c02)) = .next State.reset := by rfl

theorem reset_mem_wf : Memory.wf State.reset.mem = true := by rfl

/-- Reset reads its vector, low byte first, and keeps everything the spec says it keeps. -/
theorem Progress.resetCore_history (d : ResetDraws) (s : State) :
    (resetCore d s).history = .read 0xFFFD (s.cycles + 1) :: .read 0xFFFC s.cycles :: s.history := rfl

end Sys2Proof.Machine
end

