-- ==== Sys2Proof/Machine/Assembly.lean ====
section
/-! DEFINITION. The assembler syntax of an instruction (R116): how an instruction with its operand bytes is written. No step uses
it. -/

namespace Sys2Proof.Machine

/-- The digit of a number below 16, written as the spec's examples write it. -/
def hexDigit (n : Nat) : Char :=
  if n < 10 then Char.ofNat (48 + n) else Char.ofNat (55 + n)

/-- `$nn` -/
def byteText (b : Byte) : List Char :=
  ['$', hexDigit (b.toNat / 16), hexDigit (b.toNat % 16)]

/-- `$nnnn` -/
def wordText (w : Word) : List Char :=
  ['$', hexDigit (w.toNat / 4096), hexDigit (w.toNat / 256 % 16), hexDigit (w.toNat / 16 % 16), hexDigit (w.toNat % 16)]

/-- The first operand byte, 0 where there is none. -/
def Operand.first : Operand → Byte
  | .none => 0
  | .one b1 => b1
  | .two b1 _ => b1

/-- The second operand byte, 0 where there is none. -/
def Operand.second : Operand → Byte
  | .none => 0
  | .one _ => 0
  | .two _ b2 => b2

/-- The operand of a format as it is written (R116); `addr` is the instruction's address, from which the target of a relative
operand is computed (R105). DESIGN CHOICE (log 23): of the two spellings that R116 allows an accumulator operand, nothing or `A`,
it is always `A`; and where R116 gives no spelling, IMP1 and an NMOS illegal slot have no operand and ABS8 is written as ABS. -/
def operandText (f : Format) (o : Operand) (addr : Word) : List Char :=
  let b := byteText (Operand.first o)
  let w := wordText (word (Operand.second o) (Operand.first o))
  match f with
  | .imp => []
  | .acc => ['A']
  | .imp1 => []
  | .imm => '#' :: b
  | .zp => b
  | .zpx => b ++ [',', 'X']
  | .zpy => b ++ [',', 'Y']
  | .izx => '(' :: b ++ [',', 'X', ')']
  | .izy => '(' :: b ++ [')', ',', 'Y']
  | .izp => '(' :: b ++ [')']
  | .rel => wordText (addr + 2 + sext16 (Operand.first o))
  | .abs => w
  | .abx => w ++ [',', 'X']
  | .aby => w ++ [',', 'Y']
  | .ind => '(' :: w ++ [')']
  | .iax => '(' :: w ++ [',', 'X', ')']
  | .abs8 => w
  | .zpr => b ++ ',' :: wordText (addr + 3 + sext16 (Operand.second o))
  | .ill => []

/-- `MNEMONIC operand` (R116) of an instruction at `addr`; an NMOS illegal slot is ILLEGAL alone (log 23). -/
def assemblyText (i : Instr) (o : Operand) (addr : Word) : List Char :=
  match operandText i.format o addr with
  | [] => i.mnemonic.toList
  | text => i.mnemonic.toList ++ ' ' :: text

/-- The form an assembler takes for an absolute operand (R116): the zero-page form where the address is below 0x100 and the
variant has one. -/
def assemblerForm (v : Variant) (i : Instr) (addr : Word) : Instr :=
  if i.format = .abs ∧ addr.toNat < 0x100 then
    (((List.range 256).map (fun n => decodeOpcode v (BitVec.ofNat 8 n))).find?
      (fun j => j.mnemonic == i.mnemonic && j.format == .zp)).getD i
  else i

end Sys2Proof.Machine
end

