-- ==== Sys2Proof/Tests/Slice0.lean ====
section
/-! SUPPORT. The model's own tests: ill-formed terms, encodings written out from the spec, one step on a small state with a result
from 95_test_vectors.md (its row is named in the comment) or from a rule's Examples, and a witness for the hypotheses of each
obligation. -/

set_option Elab.async false
set_option maxRecDepth 20000

namespace Sys2Proof.Tests

open Sys2Proof.Machine Sys2Proof.Certificates

/-! ## Well-formedness: each check refuses an ill-formed term -/

theorem test_wf_refuses_alu : (Instr.adc (.mem .zpy)).wf .cmos65c02 = false := by decide
theorem test_wf_refuses_alu_izp_nmos : (Instr.lda (.mem .izp)).wf .nmos6502 = false := by decide
theorem test_wf_refuses_ldx : (Instr.ldx (.mem .zpx)).wf .cmos65c02 = false := by decide
theorem test_wf_refuses_ldy : (Instr.ldy (.mem .aby)).wf .cmos65c02 = false := by decide
theorem test_wf_refuses_compareIndex : (Instr.cpx (.mem .abx)).wf .cmos65c02 = false := by decide
theorem test_wf_refuses_bit : (Instr.bit (.mem .izx)).wf .cmos65c02 = false := by decide
theorem test_wf_refuses_bit_imm_nmos : (Instr.bit .imm).wf .nmos6502 = false := by decide
theorem test_wf_refuses_sta : (Instr.sta .zpy).wf .cmos65c02 = false := by decide
theorem test_wf_refuses_stx : (Instr.stx .zpx).wf .cmos65c02 = false := by decide
theorem test_wf_refuses_sty : (Instr.sty .abx).wf .cmos65c02 = false := by decide
theorem test_wf_refuses_stz : (Instr.stz .aby).wf .cmos65c02 = false := by decide
theorem test_wf_refuses_stz_nmos : (Instr.stz .zp).wf .nmos6502 = false := by decide
theorem test_wf_refuses_shift : (Instr.ror (.mem .aby)).wf .cmos65c02 = false := by decide
theorem test_wf_refuses_incDec : (Instr.inc (.mem .izy)).wf .cmos65c02 = false := by decide
theorem test_wf_refuses_inc_acc_nmos : (Instr.inc .acc).wf .nmos6502 = false := by decide
theorem test_wf_refuses_testSet : (Instr.tsb .zpx).wf .cmos65c02 = false := by decide
theorem test_wf_refuses_jmp_iax_nmos : (Instr.jmp .iax).wf .nmos6502 = false := by decide
theorem test_wf_refuses_bra_nmos : Instr.bra.wf .nmos6502 = false := by decide
theorem test_wf_refuses_rmb_nmos : Instr.rmb3.wf .nmos6502 = false := by decide
theorem test_wf_refuses_bbs_nmos : Instr.bbs7.wf .nmos6502 = false := by decide
theorem test_wf_refuses_phx_nmos : Instr.phx.wf .nmos6502 = false := by decide
theorem test_wf_refuses_nop_imp1 : (Instr.nop (.imp1 0xEA)).wf .cmos65c02 = false := by decide
theorem test_wf_refuses_nop_imm : (Instr.nop (.imm 0xA2)).wf .cmos65c02 = false := by decide
theorem test_wf_refuses_nop_zpx : (Instr.nop (.zpx 0x14)).wf .cmos65c02 = false := by decide
theorem test_wf_refuses_nop_abs : (Instr.nop (.abs 0x5C)).wf .cmos65c02 = false := by decide
theorem test_wf_refuses_nop_abs8_nmos : (Instr.nop .abs8).wf .nmos6502 = false := by decide
theorem test_wf_refuses_illegal_cmos : (Instr.illegal 0x02).wf .cmos65c02 = false := by decide
theorem test_wf_refuses_illegal_ea : (Instr.illegal 0xEA).wf .nmos6502 = false := by decide

/-! ## Decoding: the word of an encoding, written out from the rules' "Encodings" (41 to 45) -/

/-- The words of a list decode to the instructions beside them. -/
def decodesTo (v : Variant) (l : List (Byte × Instr)) : Bool :=
  l.all (fun e => decodeOpcode v e.1 == e.2)

theorem test_decode_loads : decodesTo .nmos6502
    [(0xA9, .lda .imm), (0xA5, .lda (.mem .zp)), (0xB5, .lda (.mem .zpx)), (0xAD, .lda (.mem .abs)),
     (0xBD, .lda (.mem .abx)), (0xB9, .lda (.mem .aby)), (0xA1, .lda (.mem .izx)), (0xB1, .lda (.mem .izy)),
     (0xA2, .ldx .imm), (0xB6, .ldx (.mem .zpy)), (0xBE, .ldx (.mem .aby)), (0xA0, .ldy .imm),
     (0xB4, .ldy (.mem .zpx)), (0xBC, .ldy (.mem .abx))] = true := by decide
theorem test_decode_stores : decodesTo .cmos65c02
    [(0x85, .sta .zp), (0x95, .sta .zpx), (0x8D, .sta .abs), (0x9D, .sta .abx), (0x99, .sta .aby), (0x81, .sta .izx),
     (0x91, .sta .izy), (0x92, .sta .izp), (0x86, .stx .zp), (0x96, .stx .zpy), (0x8E, .stx .abs), (0x84, .sty .zp),
     (0x94, .sty .zpx), (0x8C, .sty .abs), (0x64, .stz .zp), (0x74, .stz .zpx), (0x9C, .stz .abs), (0x9E, .stz .abx)] = true := by decide
theorem test_decode_transfers : decodesTo .nmos6502
    [(0xAA, .tax), (0xA8, .tay), (0x8A, .txa), (0x98, .tya), (0xBA, .tsx), (0x9A, .txs)] = true := by decide
theorem test_decode_arithmetic : decodesTo .cmos65c02
    [(0x69, .adc .imm), (0x7D, .adc (.mem .abx)), (0x72, .adc (.mem .izp)), (0xE9, .sbc .imm), (0xF9, .sbc (.mem .aby)),
     (0xC9, .cmp .imm), (0xD1, .cmp (.mem .izy)), (0xE0, .cpx .imm), (0xE4, .cpx (.mem .zp)), (0xC0, .cpy .imm),
     (0xCC, .cpy (.mem .abs)), (0xE6, .inc (.mem .zp)), (0x1A, .inc .acc), (0xDE, .dec (.mem .abx)), (0x3A, .dec .acc),
     (0xE8, .inx), (0xC8, .iny), (0xCA, .dex), (0x88, .dey)] = true := by decide
theorem test_decode_logic : decodesTo .cmos65c02
    [(0x29, .and .imm), (0x35, .and (.mem .zpx)), (0x09, .ora .imm), (0x01, .ora (.mem .izx)), (0x49, .eor .imm),
     (0x4D, .eor (.mem .abs)), (0x24, .bit (.mem .zp)), (0x2C, .bit (.mem .abs)), (0x89, .bit .imm),
     (0x34, .bit (.mem .zpx)), (0x3C, .bit (.mem .abx))] = true := by decide
theorem test_decode_shifts : decodesTo .nmos6502
    [(0x0A, .asl .acc), (0x06, .asl (.mem .zp)), (0x1E, .asl (.mem .abx)), (0x4A, .lsr .acc), (0x56, .lsr (.mem .zpx)),
     (0x2A, .rol .acc), (0x2E, .rol (.mem .abs)), (0x6A, .ror .acc), (0x66, .ror (.mem .zp))] = true := by decide
theorem test_decode_bit_instructions : decodesTo .cmos65c02
    [(0x04, .tsb .zp), (0x0C, .tsb .abs), (0x14, .trb .zp), (0x1C, .trb .abs), (0x07, .rmb0), (0x17, .rmb1),
     (0x27, .rmb2), (0x37, .rmb3), (0x47, .rmb4), (0x57, .rmb5), (0x67, .rmb6), (0x77, .rmb7), (0x87, .smb0),
     (0x97, .smb1), (0xA7, .smb2), (0xB7, .smb3), (0xC7, .smb4), (0xD7, .smb5), (0xE7, .smb6), (0xF7, .smb7)] = true := by decide
theorem test_decode_branches : decodesTo .cmos65c02
    [(0x90, .bcc), (0xB0, .bcs), (0xF0, .beq), (0xD0, .bne), (0x30, .bmi), (0x10, .bpl), (0x50, .bvc), (0x70, .bvs),
     (0x80, .bra), (0x0F, .bbr0), (0x1F, .bbr1), (0x2F, .bbr2), (0x3F, .bbr3), (0x4F, .bbr4), (0x5F, .bbr5),
     (0x6F, .bbr6), (0x7F, .bbr7), (0x8F, .bbs0), (0x9F, .bbs1), (0xAF, .bbs2), (0xBF, .bbs3), (0xCF, .bbs4),
     (0xDF, .bbs5), (0xEF, .bbs6), (0xFF, .bbs7)] = true := by decide
theorem test_decode_jumps : decodesTo .cmos65c02
    [(0x4C, .jmp .abs), (0x6C, .jmp .ind), (0x7C, .jmp .iax), (0x20, .jsr), (0x60, .rts), (0x40, .rti), (0x00, .brk)] = true := by decide
theorem test_decode_stack_and_flags : decodesTo .cmos65c02
    [(0x48, .pha), (0x08, .php), (0xDA, .phx), (0x5A, .phy), (0x68, .pla), (0x28, .plp), (0xFA, .plx), (0x7A, .ply),
     (0x18, .clc), (0x38, .sec), (0x58, .cli), (0x78, .sei), (0xD8, .cld), (0xF8, .sed), (0xB8, .clv)] = true := by decide
theorem test_decode_nops : decodesTo .cmos65c02
    [(0xEA, .nop .imp), (0xFB, .nop (.imp1 0xFB)), (0xC2, .nop (.imm 0xC2)), (0x44, .nop .zp), (0xD4, .nop (.zpx 0xD4)),
     (0xDC, .nop (.abs 0xDC)), (0x5C, .nop .abs8)] = true := by decide
theorem test_decode_illegal : decodesTo .nmos6502
    [(0x02, .illegal 0x02), (0x1A, .illegal 0x1A), (0x80, .illegal 0x80), (0x04, .illegal 0x04), (0x5C, .illegal 0x5C),
     (0x9E, .illegal 0x9E), (0xFF, .illegal 0xFF)] = true := by decide

/-- The words of the opcode table are read with bit 0 the least significant bit of the first byte (R104): 0xAD is LDA abs. -/
theorem test_decodeTableWord_abs : decodeTableWord 24 0x1234AD = some (.lda (.mem .abs)) := by decide
/-- A row shorter than the instruction: the operand bytes are zeros. -/
theorem test_decodeTableWord_short : decodeTableWord 8 0xBB = some (.nop (.imp1 0xBB)) := by decide
/-- R104: the operand of LDA $1234 is the bytes 34 12. -/
theorem test_encode_little_endian : encode (.lda (.mem .abs)) (.two 0x34 0x12) = some [0xAD, 0x34, 0x12] := by decide
/-- R101: a list that ends inside the operand is no instruction. -/
theorem test_decode_truncated : (match decode .nmos6502 [0xAD, 0x34] with | .error e => some e | .ok _ => none) =
    some .truncatedOperand := by decide
theorem test_decode_empty : (match decode .nmos6502 [] with | .error e => some e | .ok _ => none) =
    some .noOpcode := by decide

/-! ## One step -/

/-- A boundary at `pc` with SP 0xFF, the bytes `code` at `pc`, the cells `data` elsewhere, cycles 0. -/
def start (v : Variant) (pc : Word) (code : List Byte) (data : List (Nat × Byte)) : State :=
  { State.constructed (Config.default v) with
    pc := pc
    sp := 0xFF
    mem := placeBytes code pc (data.foldl (fun m c => Memory.set m c.1 c.2) []) }

/-- On the 65C02 and the NMOS part at 0x0300. -/
def cmos (code : List Byte) (data : List (Nat × Byte)) : State := start .cmos65c02 0x0300 code data
def nmos (code : List Byte) (data : List (Nat × Byte)) : State := start .nmos6502 0x0300 code data

/-- What `f` shows of the next state, if there is one. -/
def after {α : Type} (s : State) (f : State → α) : Option α :=
  match step s with
  | .next t => some (f t)
  | .fault _ => none
  | .refused _ => none

/-- The accesses and hooks of the step after the opcode fetch, oldest first (the start has no history). -/
def trace (t : State) : List BusEvent := t.history.reverse.tail

def at_ (t : State) (a : Nat) : Byte := Memory.get t.mem a

/-- N, V, Z and C. -/
def nvzc (t : State) : Bool × Bool × Bool × Bool := (t.flags.n, t.flags.v, t.flags.z, t.flags.c)

def nz (t : State) : Bool × Bool := (t.flags.n, t.flags.z)


/-- M1. -/
theorem test_lda_zp_n : after (nmos [0xA5, 0x10] [(0x10, 0x80)])
    (fun t => (t.a, nz t, trace t, t.cycles)) = some (0x80, (true, false), [.read 0x0301 1, .read 0x0010 2], 3) := by decide
/-- M7. -/
theorem test_lda_absx_wraps : after { nmos [0xBD, 0xFF, 0xFF] [(0x0000, 0x5A)] with x := 1 }
    (fun t => (t.a, trace t, t.cycles)) = some (0x5A, [.read 0x0301 1, .read 0x0302 2, .read 0xFF00 3, .read 0x0000 4], 5) := by decide
/-- L3. -/
theorem test_ldx_zpy : after { nmos [0xB6, 0xF0] [(0x0010, 0x01)] with y := 0x20 }
    (fun t => (t.x, t.a, nz t, t.cycles)) = some (0x01, 0x00, (false, false), 4) := by decide
/-- L1, for LDX (R201). -/
theorem test_ldx_imm_zero : after (nmos [0xA2, 0x00] [])
    (fun t => (t.x, nz t, t.pc)) = some (0x00, (false, true), 0x0302) := by decide
/-- L4. -/
theorem test_ldy_absx : after { nmos [0xBC, 0x00, 0x03] [(0x03FF, 0xFF)] with x := 0xFF }
    (fun t => (t.y, nz t, t.cycles)) = some (0xFF, (true, false), 4) := by decide
/-- M6. -/
theorem test_sta_absx_crossing : after { nmos [0x9D, 0xF0, 0x12] [] with x := 0x20, a := 0x33 }
    (fun t => (at_ t 0x1310, trace t, t.cycles)) = some (0x33, [.read 0x0301 1, .read 0x0302 2, .read 0x1210 3, .write 0x1310 0x33 4], 5) := by decide
/-- M11. -/
theorem test_sta_izy : after { nmos [0x91, 0x40] [(0x40, 0xF0), (0x41, 0x12)] with y := 5, a := 0x77 }
    (fun t => (at_ t 0x12F5, (trace t).tail, t.cycles)) = some (0x77, [.read 0x0040 2, .read 0x0041 3, .read 0x12F5 4, .write 0x12F5 0x77 5], 6) := by decide
/-- L6. -/
theorem test_stx_zpy_wraps : after { nmos [0x96, 0x10] [] with x := 7, y := 0xF5 }
    (fun t => (at_ t 0x0005, t.cycles)) = some (7, 4) := by decide
/-- R205. -/
theorem test_sty_abs : after { nmos [0x8C, 0x34, 0x12] [] with y := 0x9C }
    (fun t => (at_ t 0x1234, nz t, t.cycles)) = some (0x9C, (false, false), 4) := by decide
/-- L7. -/
theorem test_stz_absx : after { cmos [0x9E, 0x00, 0x03] [(0x0301, 0x55)] with x := 1, pc := 0x0400, mem := placeBytes [0x9E, 0x00, 0x03] 0x0400 [(0x0301, 0x55)] }
    (fun t => (at_ t 0x0301, (trace t).drop 2, t.cycles)) = some (0x00, [.read 0x0301 3, .write 0x0301 0x00 4], 5) := by decide
/-- L8. -/
theorem test_tax_zero : after { nmos [0xAA] [] with x := 5 }
    (fun t => (t.x, nz t)) = some (0x00, (false, true)) := by decide
/-- L12. -/
theorem test_tay : after { nmos [0xA8] [] with a := 0x7F }
    (fun t => (t.y, nz t)) = some (0x7F, (false, false)) := by decide
/-- L9. -/
theorem test_txa_n : after { nmos [0x8A] [] with x := 0x90 }
    (fun t => (t.a, nz t)) = some (0x90, (true, false)) := by decide
/-- L12. -/
theorem test_tya : after { nmos [0x98] [] with y := 0x7F }
    (fun t => (t.a, nz t)) = some (0x7F, (false, false)) := by decide
/-- L10. -/
theorem test_tsx : after { nmos [0xBA] [] with sp := 0xFD }
    (fun t => (t.x, nz t)) = some (0xFD, (true, false)) := by decide
/-- L11. -/
theorem test_txs_no_flag : after { nmos [0x9A] [] with x := 0x00 }
    (fun t => (t.sp, nz t)) = some (0x00, (false, false)) := by decide
/-- A2. -/
theorem test_adc_overflow : after { nmos [0x69, 0x01] [] with a := 0x7F }
    (fun t => (t.a, nvzc t)) = some (0x80, true, true, false, false) := by decide
/-- S3, B1. -/
theorem test_adc_decimal : after { cmos [0x69, 0x00] [] with a := 0x79, flags := { Flags.zero with d := true, c := true } }
    (fun t => (t.a, nvzc t, t.cycles)) = some (0x80, (true, true, false, false), 2) := by decide
/-- A11. -/
theorem test_sbc_borrow : after { nmos [0xE9, 0x05] [] with a := 0x05 }
    (fun t => (t.a, nvzc t)) = some (0xFF, true, false, false, false) := by decide
/-- SD3. -/
theorem test_sbc_decimal : after { nmos [0xE9, 0x13] [] with a := 0x40, flags := { Flags.zero with d := true, c := true } }
    (fun t => (t.a, nvzc t)) = some (0x27, false, false, false, true) := by decide
/-- CM3. -/
theorem test_cmp_unsigned : after { nmos [0xC9, 0x00] [] with a := 0x80 }
    (fun t => (t.a, nvzc t)) = some (0x80, true, false, false, true) := by decide
/-- CM4. -/
theorem test_cmp_keeps_v : after { nmos [0xC9, 0x30] [] with a := 0x40, flags := { Flags.zero with v := true } }
    (fun t => nvzc t) = some (false, true, false, true) := by decide
/-- CM6. -/
theorem test_cpx : after { nmos [0xE0, 0x05] [] with x := 5 }
    (fun t => nvzc t) = some (false, false, true, true) := by decide
/-- CM7. -/
theorem test_cpy : after { nmos [0xC0, 0x01] [] with y := 0 }
    (fun t => nvzc t) = some (true, false, false, false) := by decide
/-- M15. -/
theorem test_inc_zp_wraps : after (nmos [0xE6, 0x10] [(0x10, 0xFF)])
    (fun t => (at_ t 0x10, nz t, trace t, t.cycles)) = some (0x00, (false, true), [.read 0x0301 1, .read 0x0010 2, .write 0x0010 0xFF 3, .write 0x0010 0x00 4], 5) := by decide
/-- CM11. -/
theorem test_inc_acc : after { cmos [0x1A] [] with a := 0xFF }
    (fun t => (t.a, nz t)) = some (0x00, (false, true)) := by decide
/-- CM10, at 0x0400. -/
theorem test_dec_abs : after (start .nmos6502 0x0400 [0xCE, 0x00, 0x03] [(0x0300, 0x01)])
    (fun t => (at_ t 0x0300, nz t, (trace t).drop 3, t.cycles)) = some (0x00, (false, true), [.write 0x0300 0x01 4, .write 0x0300 0x00 5], 6) := by decide
/-- CM12. -/
theorem test_dec_acc : after { cmos [0x3A] [] with a := 0 }
    (fun t => (t.a, nz t)) = some (0xFF, (true, false)) := by decide
/-- CM8. -/
theorem test_inx_keeps_c : after { nmos [0xE8] [] with x := 0xFF, flags := { Flags.zero with c := true } }
    (fun t => (t.x, nvzc t)) = some (0x00, false, false, true, true) := by decide
/-- R247. -/
theorem test_iny : after { nmos [0xC8] [] with y := 0x7F }
    (fun t => (t.y, nz t)) = some (0x80, (true, false)) := by decide
/-- R248. -/
theorem test_dex : after { nmos [0xCA] [] with x := 1 }
    (fun t => (t.x, nz t)) = some (0x00, (false, true)) := by decide
/-- CM9. -/
theorem test_dey_wraps : after { nmos [0x88] [] with y := 0 }
    (fun t => (t.y, nz t)) = some (0xFF, (true, false)) := by decide
/-- G1. -/
theorem test_and : after { nmos [0x29, 0x0F] [] with a := 0xF3 }
    (fun t => (t.a, nz t)) = some (0x03, (false, false)) := by decide
/-- M2, for AND (R270). -/
theorem test_and_zpx_wraps : after { nmos [0x35, 0xF0] [(0x0010, 0x11)] with x := 0x20, a := 0xFF }
    (fun t => (t.a, trace t)) = some (0x11, [.read 0x0301 1, .read 0x00F0 2, .read 0x0010 3]) := by decide
/-- G3. -/
theorem test_ora : after { nmos [0x09, 0x80] [] with a := 0 }
    (fun t => (t.a, nz t)) = some (0x80, (true, false)) := by decide
/-- G4. -/
theorem test_eor : after { nmos [0x49, 0xFF] [] with a := 0xFF }
    (fun t => (t.a, nz t)) = some (0x00, (false, true)) := by decide
/-- G5. -/
theorem test_bit_zp : after { nmos [0x24, 0x20] [(0x20, 0xC0)] with a := 1 }
    (fun t => (t.a, nvzc t)) = some (0x01, true, true, true, false) := by decide
/-- G7. -/
theorem test_bit_imm_z_only : after { cmos [0x89, 0x80] [] with a := 0, flags := { Flags.zero with v := true } }
    (fun t => nvzc t) = some (false, true, true, false) := by decide
/-- M18. -/
theorem test_asl_acc : after { nmos [0x0A] [] with a := 0x80 }
    (fun t => (t.a, nvzc t)) = some (0x00, false, false, true, true) := by decide
/-- M14, at 0x0400. -/
theorem test_asl_absx : after { start .cmos65c02 0x0400 [0x1E, 0x00, 0x03] [(0x0301, 0x81)] with x := 1 }
    (fun t => (at_ t 0x0301, nvzc t, (trace t).drop 2, t.cycles)) = some (0x02, (false, false, false, true), [.read 0x0301 3, .read 0x0301 4, .write 0x0301 0x81 5, .write 0x0301 0x02 6], 7) := by decide
/-- G10. -/
theorem test_lsr_acc : after { nmos [0x4A] [] with a := 0xFF }
    (fun t => (t.a, nvzc t)) = some (0x7F, false, false, false, true) := by decide
/-- G12. -/
theorem test_rol_acc : after { nmos [0x2A] [] with a := 1, flags := { Flags.zero with c := true } }
    (fun t => (t.a, nvzc t)) = some (0x03, false, false, false, false) := by decide
/-- G13. -/
theorem test_ror_acc : after { nmos [0x6A] [] with a := 1, flags := { Flags.zero with c := true } }
    (fun t => (t.a, nvzc t)) = some (0x80, true, false, false, true) := by decide
/-- G15. -/
theorem test_ror_zp : after { nmos [0x66, 0x10] [(0x10, 0x02)] with flags := { Flags.zero with c := true } }
    (fun t => (at_ t 0x10, nvzc t, t.cycles)) = some (0x81, (true, false, false, false), 5) := by decide
/-- G16. -/
theorem test_tsb : after { cmos [0x04, 0x10] [(0x10, 0x30)] with a := 0x0F }
    (fun t => (at_ t 0x10, t.flags.z, (trace t).drop 2)) = some (0x3F, true, [.write 0x0010 0x30 3, .write 0x0010 0x3F 4]) := by decide
/-- G17. -/
theorem test_trb : after { cmos [0x14, 0x10] [(0x10, 0x3C)] with a := 0x0F }
    (fun t => (at_ t 0x10, t.flags.z)) = some (0x30, false) := by decide
/-- R280 with bit 0. -/
theorem test_rmb0 : after (cmos [0x07, 0x20] [(0x20, 0xFF)])
    (fun t => (at_ t 0x20, t.flags, t.cycles)) = some (0xFE, Flags.zero, 5) := by decide
/-- R280 with bit 1. -/
theorem test_rmb1 : after (cmos [0x17, 0x20] [(0x20, 0xFF)])
    (fun t => (at_ t 0x20, t.flags, t.cycles)) = some (0xFD, Flags.zero, 5) := by decide
/-- R280 with bit 2. -/
theorem test_rmb2 : after (cmos [0x27, 0x20] [(0x20, 0xFF)])
    (fun t => (at_ t 0x20, t.flags, t.cycles)) = some (0xFB, Flags.zero, 5) := by decide
/-- R280 with bit 3. -/
theorem test_rmb3 : after (cmos [0x37, 0x20] [(0x20, 0xFF)])
    (fun t => (at_ t 0x20, t.flags, t.cycles)) = some (0xF7, Flags.zero, 5) := by decide
/-- R280 with bit 4. -/
theorem test_rmb4 : after (cmos [0x47, 0x20] [(0x20, 0xFF)])
    (fun t => (at_ t 0x20, t.flags, t.cycles)) = some (0xEF, Flags.zero, 5) := by decide
/-- G19. -/
theorem test_rmb5 : after (cmos [0x57, 0x20] [(0x20, 0xFF)])
    (fun t => (at_ t 0x20, t.flags, t.cycles)) = some (0xDF, Flags.zero, 5) := by decide
/-- R280 with bit 6. -/
theorem test_rmb6 : after (cmos [0x67, 0x20] [(0x20, 0xFF)])
    (fun t => (at_ t 0x20, t.flags, t.cycles)) = some (0xBF, Flags.zero, 5) := by decide
/-- R280 with bit 7. -/
theorem test_rmb7 : after (cmos [0x77, 0x20] [(0x20, 0xFF)])
    (fun t => (at_ t 0x20, t.flags, t.cycles)) = some (0x7F, Flags.zero, 5) := by decide
/-- G20. -/
theorem test_smb0 : after (cmos [0x87, 0x20] [])
    (fun t => (at_ t 0x20, t.flags, t.cycles)) = some (0x01, Flags.zero, 5) := by decide
/-- R281 with bit 1. -/
theorem test_smb1 : after (cmos [0x97, 0x20] [])
    (fun t => (at_ t 0x20, t.flags, t.cycles)) = some (0x02, Flags.zero, 5) := by decide
/-- R281 with bit 2. -/
theorem test_smb2 : after (cmos [0xA7, 0x20] [])
    (fun t => (at_ t 0x20, t.flags, t.cycles)) = some (0x04, Flags.zero, 5) := by decide
/-- R281 with bit 3. -/
theorem test_smb3 : after (cmos [0xB7, 0x20] [])
    (fun t => (at_ t 0x20, t.flags, t.cycles)) = some (0x08, Flags.zero, 5) := by decide
/-- R281 with bit 4. -/
theorem test_smb4 : after (cmos [0xC7, 0x20] [])
    (fun t => (at_ t 0x20, t.flags, t.cycles)) = some (0x10, Flags.zero, 5) := by decide
/-- R281 with bit 5. -/
theorem test_smb5 : after (cmos [0xD7, 0x20] [])
    (fun t => (at_ t 0x20, t.flags, t.cycles)) = some (0x20, Flags.zero, 5) := by decide
/-- R281 with bit 6. -/
theorem test_smb6 : after (cmos [0xE7, 0x20] [])
    (fun t => (at_ t 0x20, t.flags, t.cycles)) = some (0x40, Flags.zero, 5) := by decide
/-- R281 with bit 7. -/
theorem test_smb7 : after (cmos [0xF7, 0x20] [])
    (fun t => (at_ t 0x20, t.flags, t.cycles)) = some (0x80, Flags.zero, 5) := by decide
/-- J1. -/
theorem test_bcc_taken : after (nmos [0x90, 0x10] [])
    (fun t => (t.pc, trace t, t.cycles)) = some (0x0312, [.read 0x0301 1, .read 0x0302 2], 3) := by decide
/-- J2. -/
theorem test_bcs_not_taken : after (nmos [0xB0, 0x10] [])
    (fun t => (t.pc, t.cycles)) = some (0x0302, 2) := by decide
/-- J5. -/
theorem test_beq_crosses : after { start .nmos6502 0x02F0 [0xF0, 0x20] [] with flags := { Flags.zero with z := true } }
    (fun t => (t.pc, trace t, t.cycles)) = some (0x0312, [.read 0x02F1 1, .read 0x02F2 2, .read 0x0212 3], 4) := by decide
/-- J6. -/
theorem test_beq_same_page : after { start .nmos6502 0x02F0 [0xF0, 0x0C] [] with flags := { Flags.zero with z := true } }
    (fun t => (t.pc, t.cycles)) = some (0x02FE, 3) := by decide
/-- J4. -/
theorem test_bne_backwards : after (nmos [0xD0, 0xFC] [])
    (fun t => (t.pc, trace t, t.cycles)) = some (0x02FE, [.read 0x0301 1, .read 0x0302 2, .read 0x03FE 3], 4) := by decide
/-- J8. -/
theorem test_bmi_offset_zero : after { nmos [0x30, 0x00] [] with flags := { Flags.zero with n := true } }
    (fun t => (t.pc, t.cycles)) = some (0x0302, 3) := by decide
/-- J7. -/
theorem test_bpl_to_itself : after (nmos [0x10, 0xFE] [])
    (fun t => (t.pc, t.cycles)) = some (0x0300, 3) := by decide
/-- J10. -/
theorem test_bvc_not_taken : after { nmos [0x50, 0x10] [] with flags := { Flags.zero with v := true } }
    (fun t => (t.pc, t.cycles)) = some (0x0302, 2) := by decide
/-- J9. -/
theorem test_bvs_wraps : after { start .nmos6502 0xFFF0 [0x70, 0x7F] [] with flags := { Flags.zero with v := true } }
    (fun t => (t.pc, t.cycles)) = some (0x0071, 4) := by decide
/-- J11. -/
theorem test_bra : after (cmos [0x80, 0xFE] [])
    (fun t => (t.pc, t.cycles)) = some (0x0300, 3) := by decide
/-- J15. -/
theorem test_jmp_indirect_buggy : after (nmos [0x6C, 0xFF, 0x10] [(0x10FF, 0x00), (0x1000, 0x20), (0x1100, 0x30)])
    (fun t => (t.pc, (trace t).drop 2, t.cycles)) = some (0x2000, [.read 0x10FF 3, .read 0x1000 4], 5) := by decide
/-- J16. -/
theorem test_jmp_indirect_fixed : after (cmos [0x6C, 0xFF, 0x10] [(0x10FF, 0x00), (0x1000, 0x20), (0x1100, 0x30)])
    (fun t => (t.pc, (trace t).drop 2, t.cycles)) = some (0x3000, [.read 0x0302 3, .read 0x10FF 4, .read 0x1100 5], 6) := by decide
/-- J19, J20. -/
theorem test_jsr_wraps_stack : after { nmos [0x20, 0x00, 0x10] [] with sp := 0 }
    (fun t => (t.pc, t.sp, trace t, t.cycles)) = some (0x1000, 0xFE, [.read 0x0301 1, .read 0x0100 2, .write 0x0100 0x03 3, .write 0x01FF 0x02 4, .read 0x0302 5, .hook .call], 6) := by decide
/-- J21. -/
theorem test_rts : after { start .nmos6502 0x0400 [0x60] [(0x01FE, 0x02), (0x01FF, 0x03)] with sp := 0xFD }
    (fun t => (t.pc, t.sp, trace t, t.cycles)) = some (0x0303, 0xFF, [.read 0x0401 1, .read 0x01FD 2, .read 0x01FE 3, .read 0x01FF 4, .read 0x0302 5, .hook .ret], 6) := by decide
/-- J23. -/
theorem test_rti : after { nmos [0x40] [(0x01FB, 0x30), (0x01FC, 0x00), (0x01FD, 0x04)] with sp := 0xFA }
    (fun t => (statusByte t.flags, t.pc, t.sp, t.cycles)) = some (0x00, 0x0400, 0xFD, 6) := by decide
/-- J24. -/
theorem test_rti_status : after { nmos [0x40] [(0x01FB, 0xFF)] with sp := 0xFA }
    (fun t => statusByte t.flags) = some 0xCF := by decide
/-- J25. -/
theorem test_brk : after { nmos [0x00, 0xEA] [(0xFFFE, 0x00), (0xFFFF, 0xF0)] with flags := { Flags.zero with d := true } }
    (fun t => (trace t, t.flags, t.pc, t.sp, t.cycles)) = some ([.read 0x0301 1, .write 0x01FF 0x03 2, .write 0x01FE 0x02 3, .write 0x01FD 0x38 4, .read 0xFFFE 5, .read 0xFFFF 6, .hook .debug], { Flags.zero with i := true }, 0xF000, 0xFC, 7) := by decide
/-- J27. -/
theorem test_bbr0_taken : after (start .cmos65c02 0x0400 [0x0F, 0x10, 0x05] [(0x10, 0xFE)])
    (fun t => (t.pc, (trace t).tail, t.cycles)) = some (0x0408, [.read 0x0010 2, .read 0x0010 3, .read 0x0402 4, .read 0x0403 5], 6) := by decide
/-- R326 with bit 1 set: not taken. -/
theorem test_bbr1_set : after (cmos [0x1F, 0x10, 0x05] [(0x10, 0x02)])
    (fun t => (t.pc, t.cycles)) = some (0x0303, 5) := by decide
/-- R326 with bit 2 set: not taken. -/
theorem test_bbr2_set : after (cmos [0x2F, 0x10, 0x05] [(0x10, 0x04)])
    (fun t => (t.pc, t.cycles)) = some (0x0303, 5) := by decide
/-- R326 with bit 3 set: not taken. -/
theorem test_bbr3_set : after (cmos [0x3F, 0x10, 0x05] [(0x10, 0x08)])
    (fun t => (t.pc, t.cycles)) = some (0x0303, 5) := by decide
/-- R326 with bit 4 set: not taken. -/
theorem test_bbr4_set : after (cmos [0x4F, 0x10, 0x05] [(0x10, 0x10)])
    (fun t => (t.pc, t.cycles)) = some (0x0303, 5) := by decide
/-- R326 with bit 5 set: not taken. -/
theorem test_bbr5_set : after (cmos [0x5F, 0x10, 0x05] [(0x10, 0x20)])
    (fun t => (t.pc, t.cycles)) = some (0x0303, 5) := by decide
/-- R326 with bit 6 set: not taken. -/
theorem test_bbr6_set : after (cmos [0x6F, 0x10, 0x05] [(0x10, 0x40)])
    (fun t => (t.pc, t.cycles)) = some (0x0303, 5) := by decide
/-- R326 with bit 7 set: not taken. -/
theorem test_bbr7_set : after (cmos [0x7F, 0x10, 0x05] [(0x10, 0x80)])
    (fun t => (t.pc, t.cycles)) = some (0x0303, 5) := by decide
/-- J28. -/
theorem test_bbs0_not_taken : after (start .cmos65c02 0x0400 [0x8F, 0x10, 0x05] [(0x10, 0xFE)])
    (fun t => (t.pc, t.cycles)) = some (0x0403, 5) := by decide
/-- R327 with bit 1 set: taken. -/
theorem test_bbs1_set : after (cmos [0x9F, 0x10, 0x05] [(0x10, 0x02)])
    (fun t => (t.pc, t.cycles)) = some (0x0308, 6) := by decide
/-- R327 with bit 2 set: taken. -/
theorem test_bbs2_set : after (cmos [0xAF, 0x10, 0x05] [(0x10, 0x04)])
    (fun t => (t.pc, t.cycles)) = some (0x0308, 6) := by decide
/-- R327 with bit 3 set: taken. -/
theorem test_bbs3_set : after (cmos [0xBF, 0x10, 0x05] [(0x10, 0x08)])
    (fun t => (t.pc, t.cycles)) = some (0x0308, 6) := by decide
/-- R327 with bit 4 set: taken. -/
theorem test_bbs4_set : after (cmos [0xCF, 0x10, 0x05] [(0x10, 0x10)])
    (fun t => (t.pc, t.cycles)) = some (0x0308, 6) := by decide
/-- R327 with bit 5 set: taken. -/
theorem test_bbs5_set : after (cmos [0xDF, 0x10, 0x05] [(0x10, 0x20)])
    (fun t => (t.pc, t.cycles)) = some (0x0308, 6) := by decide
/-- R327 with bit 6 set: taken. -/
theorem test_bbs6_set : after (cmos [0xEF, 0x10, 0x05] [(0x10, 0x40)])
    (fun t => (t.pc, t.cycles)) = some (0x0308, 6) := by decide
/-- J29. -/
theorem test_bbs7_crosses : after (start .cmos65c02 0x0400 [0xFF, 0x10, 0x80] [(0x10, 0x80)])
    (fun t => (t.pc, t.cycles)) = some (0x0383, 7) := by decide
/-- K2. -/
theorem test_pha_wraps : after { nmos [0x48] [] with a := 0x5A, sp := 0 }
    (fun t => (at_ t 0x0100, t.sp, t.cycles)) = some (0x5A, 0xFF, 3) := by decide
/-- K3. -/
theorem test_php : after { nmos [0x08] [] with flags := { Flags.zero with n := true, c := true } }
    (fun t => (at_ t 0x01FF, t.cycles)) = some (0xB1, 3) := by decide
/-- K9. -/
theorem test_phx : after { cmos [0xDA] [(0x01FF, 0x11)] with x := 0 }
    (fun t => (at_ t 0x01FF, t.sp, t.cycles)) = some (0x00, 0xFE, 3) := by decide
/-- R355. -/
theorem test_phy : after { cmos [0x5A] [] with y := 0x21 }
    (fun t => (at_ t 0x01FF, t.sp, t.cycles)) = some (0x21, 0xFE, 3) := by decide
/-- K5. -/
theorem test_pla : after (nmos [0x68] [(0x0100, 0x80)])
    (fun t => (t.a, nz t, t.sp, trace t)) = some (0x80, (true, false), 0x00, [.read 0x0301 1, .read 0x01FF 2, .read 0x0100 3]) := by decide
/-- K6. -/
theorem test_plp : after { nmos [0x28] [(0x01FF, 0xFF)] with sp := 0xFE }
    (fun t => (statusByte t.flags, t.cycles)) = some (0xCF, 4) := by decide
/-- R358. -/
theorem test_plx : after { cmos [0xFA] [(0x01FF, 0x7F)] with sp := 0xFE }
    (fun t => (t.x, nz t, t.a)) = some (0x7F, (false, false), 0x00) := by decide
/-- K9. -/
theorem test_ply : after { cmos [0x7A] [] with sp := 0xFE, y := 1 }
    (fun t => (t.y, nz t, t.cycles)) = some (0x00, (false, true), 4) := by decide
/-- All six flags set. -/
def allSet : Flags := { n := true, v := true, d := true, i := true, z := true, c := true }

/-- K10. -/
theorem test_clc : after { nmos [0x18] [] with flags := allSet }
    (fun t => (t.flags, t.cycles)) = some ({ allSet with c := false }, 2) := by decide
/-- K10. -/
theorem test_sec : after { nmos [0x38] [] with flags := Flags.zero }
    (fun t => (t.flags, t.cycles)) = some ({ Flags.zero with c := true }, 2) := by decide
/-- R362. -/
theorem test_cli : after { nmos [0x58] [] with flags := allSet }
    (fun t => (t.flags, t.cycles)) = some ({ allSet with i := false }, 2) := by decide
/-- R363. -/
theorem test_sei : after { nmos [0x78] [] with flags := Flags.zero }
    (fun t => (t.flags, t.cycles)) = some ({ Flags.zero with i := true }, 2) := by decide
/-- K11. -/
theorem test_cld : after { nmos [0xD8] [] with flags := allSet }
    (fun t => (t.flags, t.cycles)) = some ({ allSet with d := false }, 2) := by decide
/-- K11. -/
theorem test_sed : after { nmos [0xF8] [] with flags := Flags.zero }
    (fun t => (t.flags, t.cycles)) = some ({ Flags.zero with d := true }, 2) := by decide
/-- K12. -/
theorem test_clv : after { nmos [0xB8] [] with flags := allSet }
    (fun t => (t.flags, t.cycles)) = some ({ allSet with v := false }, 2) := by decide
/-- M17. -/
theorem test_nop : after (nmos [0xEA] [])
    (fun t => (t.pc, trace t, t.cycles)) = some (0x0301, [.read 0x0301 1], 2) := by decide
/-- K15. -/
theorem test_nop_imp1 : after (cmos [0x03] [])
    (fun t => (t.pc, trace t, t.cycles)) = some (0x0301, [], 1) := by decide
/-- K21. -/
theorem test_nop_abs8 : after (cmos [0x5C, 0x34, 0x12] [])
    (fun t => (t.pc, (trace t).drop 2, t.cycles)) = some (0x0303, [.read 0x1234 3, .read 0x1234 4, .read 0x1234 5, .read 0x1234 6, .read 0x1234 7], 8) := by decide
/-- K22. -/
theorem test_illegal : after { nmos [0x02] [] with cfg := { Config.default .nmos6502 with illegalRows := [⟨0x02, 0, 1⟩] } }
    (fun t => (t.pc, t.history, t.cycles, t.illegalSeen)) = some (0x0301, [.read 0x0300 0], 2, true) := by decide

/-! ## Interrupts and reset (section 2.7 and 2.8) -/

/-- The common state of section 2.7. -/
def boundary (v : Variant) : State :=
  start v 0x0401 [] [(0xFFFA, 0x00), (0xFFFB, 0x80), (0xFFFE, 0x00), (0xFFFF, 0x05)]

/-- I1. -/
theorem test_irq : after { boundary .nmos6502 with pendingIRQ := true, flags := { Flags.zero with c := true } }
    (fun t => (t.history.reverse, t.pc, t.sp, t.flags.i, t.pendingIRQ)) = some ([.read 0x0401 0, .read 0x0401 1, .write 0x01FF 0x04 2, .write 0x01FE 0x01 3, .write 0x01FD 0x21 4, .read 0xFFFE 5, .read 0xFFFF 6], 0x0500, 0xFC, true, false) := by decide
/-- I2. -/
theorem test_irq_pushed_b : after { boundary .nmos6502 with pendingIRQ := true, flags := { Flags.zero with c := true }, cfg := { Config.default .nmos6502 with hwIntPushedB := true } }
    (fun t => at_ t 0x01FD) = some 0x31 := by decide
/-- I3. -/
theorem test_irq_masked : after { boundary .nmos6502 with pendingIRQ := true, flags := { Flags.zero with i := true }, mem := placeBytes [0xEA] 0x0401 [] }
    (fun t => (t.pc, t.pendingIRQ)) = some (0x0402, true) := by decide
/-- I4, I5. -/
theorem test_nmi_first : after { boundary .nmos6502 with pendingNMI := true, pendingIRQ := true }
    (fun t => (t.pc, t.pendingNMI, t.pendingIRQ, t.flags.i)) = some (0x8000, false, true, true) := by decide
/-- I6. -/
theorem test_irq_decimal_cmos : after { boundary .cmos65c02 with pendingIRQ := true, flags := { Flags.zero with d := true } }
    (fun t => (statusByte t.flags, at_ t 0x01FD)) = some (0x04, 0x28) := by decide
/-- I6. -/
theorem test_irq_decimal_nmos : after { boundary .nmos6502 with pendingIRQ := true, flags := { Flags.zero with d := true } }
    (fun t => (statusByte t.flags, at_ t 0x01FD)) = some (0x0C, 0x28) := by decide

/-- PC and cycles of an answer. -/
def ended (o : Host.Outcome State Fault Refusal) : Option (Word × Nat) :=
  match o with
  | .next t => some (t.pc, t.cycles)
  | .fault _ => none
  | .refused _ => none

/-- Z1. -/
theorem test_reset : (match hostReset zeroDraws
      { start .nmos6502 0x0300 [] [(0xFFFD, 0xF0)] with cycles := 100, pendingNMI := true, pendingIRQ := true } with
    | .next t => some (t.history.reverse, t.pc, t.cycles, t.pendingNMI, t.pendingIRQ)
    | .fault _ => none
    | .refused _ => none) = some ([.read 0xFFFC 100, .read 0xFFFD 101], 0xF000, 102, false, false) := by decide

/-- R470: two one-cycle NOPs fit a budget of 2; with a stop condition on PC the call ends after the first, and the condition is
not asked before an instruction has run. -/
theorem test_advanceClock_budget : ended (advanceClock (fun _ => false) 2 (cmos [0x03, 0x03, 0x03] [])) = some (0x0302, 2) := by
  decide
theorem test_advanceClock_stop :
    ended (advanceClock (fun u => u.pc == 0x0301) 2 (cmos [0x03, 0x03, 0x03] [])) = some (0x0301, 1) := by decide
theorem test_advanceClock_asks_after :
    ended (advanceClock (fun u => u.pc == 0x0300) 2 (cmos [0x03, 0x03, 0x03] [])) = some (0x0302, 2) := by decide

/-- R58: a restore into a state inside an instruction is refused, whatever the snapshot. -/
theorem test_setState_midInstruction :
    (match getState () (cmos [] []) with
      | .next q => (match setState q { cmos [] [] with t := 1 } with
        | .refused r => some r
        | .next _ => none
        | .fault _ => none)
      | .fault _ => none
      | .refused _ => none) = some .midInstruction := by decide

/-- A word of the opcode table runs as the first instruction after reset (log 12): LDX #$80. -/
theorem test_withFetchWord : after (State.reset.withFetchWord 16 0x80A2) (fun t => (t.x, t.pc)) = some (0x80, 0x0002) := by decide

/-! ## The arithmetic cores (section 2.2) -/

/-- A row: A, M, C in, the result and N, V, Z, C. -/
structure ArithRow where
  a : Byte
  m : Byte
  c : Bool
  q : Arith
  deriving DecidableEq, Repr

def holdsFor (f : Byte → Byte → Bool → Arith) (rows : List ArithRow) : Bool :=
  rows.all (fun r => f r.a r.m r.c == r.q)

/-- A1 to A6. -/
theorem test_adc_binary : holdsFor adcBinary
    [⟨0x10, 0x05, true, ⟨0x16, false, false, false, false⟩⟩,
     ⟨0x7F, 0x01, false, ⟨0x80, true, true, false, false⟩⟩,
     ⟨0xFF, 0x01, false, ⟨0x00, false, false, true, true⟩⟩,
     ⟨0xFF, 0xFF, true, ⟨0xFF, true, false, false, true⟩⟩,
     ⟨0x80, 0x80, false, ⟨0x00, false, true, true, true⟩⟩,
     ⟨0xFF, 0xF1, false, ⟨0xF0, true, false, false, true⟩⟩] = true := by decide
/-- A7 to A12. -/
theorem test_sbc_binary : holdsFor sbcBinary
    [⟨0x05, 0x03, true, ⟨0x02, false, false, false, true⟩⟩,
     ⟨0x00, 0x01, true, ⟨0xFF, true, false, false, false⟩⟩,
     ⟨0x80, 0x01, true, ⟨0x7F, false, true, false, true⟩⟩,
     ⟨0x50, 0xB0, true, ⟨0xA0, true, true, false, false⟩⟩,
     ⟨0x05, 0x05, false, ⟨0xFF, true, false, false, false⟩⟩,
     ⟨0x00, 0x00, true, ⟨0x00, false, false, true, true⟩⟩] = true := by decide
/-- B1 to B12. -/
theorem test_adc_decimal_nmos : holdsFor adcDecimalNmos
    [⟨0x79, 0x00, true, ⟨0x80, true, true, false, false⟩⟩,
     ⟨0x12, 0x34, false, ⟨0x46, false, false, false, false⟩⟩,
     ⟨0x15, 0x26, false, ⟨0x41, false, false, false, false⟩⟩,
     ⟨0x09, 0x01, false, ⟨0x10, false, false, false, false⟩⟩,
     ⟨0x58, 0x46, true, ⟨0x05, true, true, false, true⟩⟩,
     ⟨0x58, 0x46, false, ⟨0x04, true, true, false, true⟩⟩,
     ⟨0x99, 0x01, false, ⟨0x00, true, false, false, true⟩⟩,
     ⟨0x81, 0x92, false, ⟨0x73, false, true, false, true⟩⟩,
     ⟨0x50, 0x50, false, ⟨0x00, true, true, false, true⟩⟩,
     ⟨0x99, 0x99, true, ⟨0x99, false, true, false, true⟩⟩,
     ⟨0x00, 0x00, false, ⟨0x00, false, false, true, false⟩⟩,
     ⟨0x0F, 0x01, false, ⟨0x16, false, false, false, false⟩⟩] = true := by decide
/-- B1 to B12. -/
theorem test_adc_decimal_cmos : holdsFor adcDecimalCmos
    [⟨0x79, 0x00, true, ⟨0x80, true, true, false, false⟩⟩,
     ⟨0x12, 0x34, false, ⟨0x46, false, false, false, false⟩⟩,
     ⟨0x15, 0x26, false, ⟨0x41, false, false, false, false⟩⟩,
     ⟨0x09, 0x01, false, ⟨0x10, false, false, false, false⟩⟩,
     ⟨0x58, 0x46, true, ⟨0x05, false, true, false, true⟩⟩,
     ⟨0x58, 0x46, false, ⟨0x04, false, true, false, true⟩⟩,
     ⟨0x99, 0x01, false, ⟨0x00, false, false, true, true⟩⟩,
     ⟨0x81, 0x92, false, ⟨0x73, false, true, false, true⟩⟩,
     ⟨0x50, 0x50, false, ⟨0x00, false, true, true, true⟩⟩,
     ⟨0x99, 0x99, true, ⟨0x99, true, true, false, true⟩⟩,
     ⟨0x00, 0x00, false, ⟨0x00, false, false, true, false⟩⟩,
     ⟨0x0F, 0x01, false, ⟨0x16, false, false, false, false⟩⟩] = true := by decide
/-- SD1 to SD11. -/
theorem test_sbc_decimal_nmos : holdsFor sbcDecimalNmos
    [⟨0x00, 0x01, true, ⟨0x99, true, false, false, false⟩⟩,
     ⟨0x46, 0x12, true, ⟨0x34, false, false, false, true⟩⟩,
     ⟨0x40, 0x13, true, ⟨0x27, false, false, false, true⟩⟩,
     ⟨0x32, 0x02, false, ⟨0x29, false, false, false, true⟩⟩,
     ⟨0x12, 0x21, true, ⟨0x91, true, false, false, false⟩⟩,
     ⟨0x21, 0x34, true, ⟨0x87, true, false, false, false⟩⟩,
     ⟨0x00, 0x00, true, ⟨0x00, false, false, true, true⟩⟩,
     ⟨0x10, 0x01, true, ⟨0x09, false, false, false, true⟩⟩,
     ⟨0x80, 0x01, true, ⟨0x79, false, true, false, true⟩⟩,
     ⟨0x99, 0x99, false, ⟨0x99, true, false, false, false⟩⟩,
     ⟨0x0A, 0x00, true, ⟨0x0A, false, false, false, true⟩⟩] = true := by decide
/-- SD1 to SD11. -/
theorem test_sbc_decimal_cmos : holdsFor sbcDecimalCmos
    [⟨0x00, 0x01, true, ⟨0x99, true, false, false, false⟩⟩,
     ⟨0x46, 0x12, true, ⟨0x34, false, false, false, true⟩⟩,
     ⟨0x40, 0x13, true, ⟨0x27, false, false, false, true⟩⟩,
     ⟨0x32, 0x02, false, ⟨0x29, false, false, false, true⟩⟩,
     ⟨0x12, 0x21, true, ⟨0x91, true, false, false, false⟩⟩,
     ⟨0x21, 0x34, true, ⟨0x87, true, false, false, false⟩⟩,
     ⟨0x00, 0x00, true, ⟨0x00, false, false, true, true⟩⟩,
     ⟨0x10, 0x01, true, ⟨0x09, false, false, false, true⟩⟩,
     ⟨0x80, 0x01, true, ⟨0x79, false, true, false, true⟩⟩,
     ⟨0x99, 0x99, false, ⟨0x99, true, false, false, false⟩⟩,
     ⟨0x0A, 0x00, true, ⟨0x0A, false, false, false, true⟩⟩] = true := by decide

/-! ## Assembler syntax (R116) -/

/-- M9's instruction. -/
theorem test_assembly_izy : assemblyText (.lda (.mem .izy)) (.one 0x40) 0x0300 = "LDA ($40),Y".toList := by decide
/-- J3's instruction: the target, not the offset. -/
theorem test_assembly_rel : assemblyText .bne (.one 0xFB) 0x0305 = "BNE $0302".toList := by decide
/-- J27's instruction. -/
theorem test_assembly_zpr : assemblyText .bbr0 (.two 0x10 0x05) 0x0400 = "BBR0 $10,$0408".toList := by decide
theorem test_assembly_iax : assemblyText (.jmp .iax) (.two 0xFF 0x10) 0x0300 = "JMP ($10FF,X)".toList := by decide
/-- The model's choice (log 23): ABS8 is written as ABS, an NMOS illegal slot has no operand. -/
theorem test_assembly_choices : assemblyText (.nop .abs8) (.two 0x34 0x12) 0x0300 = "NOP $1234".toList ∧
    assemblyText (.illegal 0x02) .none 0x0300 = "ILLEGAL".toList ∧
    assemblyText (.asl .acc) .none 0x0300 = "ASL A".toList := by decide
/-- An address below 0x100 takes the zero-page form where there is one. -/
theorem test_assembler_form : assemblerForm .nmos6502 (.lda (.mem .abs)) 0x0010 = .lda (.mem .zp) ∧
    assemblerForm .nmos6502 (.jmp .abs) 0x0010 = .jmp .abs ∧
    assemblerForm .nmos6502 (.lda (.mem .abs)) 0x0100 = .lda (.mem .abs) := by decide


/-! ## Witnesses: concrete states and operands that meet the hypotheses of each obligation that has some -/

/-- Under the default configuration the whole address space is RAM. -/
theorem allRam_default {s : State} (v : Variant) (hc : s.cfg = Config.default v) : AllRam s := by
  intro addr
  have h := addr.isLt
  simp [State.isRam, hc, Config.default]
  omega

/-- So is the stack page. -/
theorem stackIsRam_default {s : State} (v : Variant) (hc : s.cfg = Config.default v) : StackIsRam s :=
  fun _ => allRam_default v hc _

/-- A machine none of whose addresses is RAM. -/
def noRam : State :=
  { State.constructed { Config.default .cmos65c02 with ram := [] } with pc := 0x0300, sp := 0xFF }

/-- `exec` answers a next state from `s`. -/
def Answers (i : Instr) (s : State) : Prop := ∃ t, exec i s = .next t

theorem test_witness_DecodeOfEncodeIsIdentity :
    (Instr.lda (.mem .izy)).wf .nmos6502 = true ∧ (Operand.one 0xFF).fits (.lda (.mem .izy)) = true := by decide
theorem test_witness_DecodeOfEncodeIsIdentity_two :
    Instr.bbs7.wf .cmos65c02 = true ∧ (Operand.two 0x00 0xFF).fits .bbs7 = true := by decide
theorem test_witness_DecodeOfEncodeIsIdentity_none :
    (Instr.illegal 0xFF).wf .nmos6502 = true ∧ Operand.none.fits (.illegal 0xFF) = true := by decide

theorem test_witness_StepRunsTheDecodedInstruction :
    RunsInstruction (cmos [0xAA] []) ∧
      decodeOpcode (cmos [0xAA] []).cfg.variant (busAnswer (cmos [0xAA] []).pc (cmos [0xAA] [])) = .tax :=
  ⟨⟨rfl, rfl, .inl rfl⟩, by decide⟩
theorem test_witness_StepRunsTheDecodedInstruction_masked :
    RunsInstruction { nmos [0xAA] [] with pendingIRQ := true, flags := allSet } :=
  ⟨rfl, rfl, .inr rfl⟩

theorem test_witness_EveryBoundaryStepAnswersABoundary : noRam.t = 0 ∧ State.reset.t = 0 := by decide

theorem test_witness_InterruptSequenceIsPrecise_nmi :
    let s := { boundary .nmos6502 with pendingNMI := true, pendingIRQ := true, sp := 0x01 }
    s.t = 0 ∧ Memory.wf s.mem = true ∧ Takes s .nmi :=
  ⟨rfl, by decide, .inl ⟨rfl, rfl⟩⟩
theorem test_witness_InterruptSequenceIsPrecise_irq :
    let s := { boundary .cmos65c02 with pendingIRQ := true, sp := 0x00 }
    s.t = 0 ∧ Memory.wf s.mem = true ∧ Takes s .irq :=
  ⟨rfl, by decide, .inr ⟨rfl, rfl, rfl, rfl⟩⟩
/-- The clauses on the pushed bytes: all three stack addresses are RAM, also where SP wraps. -/
theorem test_witness_InterruptSequenceIsPrecise_stack :
    let s := { boundary .cmos65c02 with sp := 0x01 }
    s.isRam (stackAddr s.sp) = true ∧ s.isRam (stackAddr (s.sp - 1)) = true ∧ s.isRam (stackAddr (s.sp - 2)) = true ∧
      (stackAddr (s.sp - 2)) = 0x01FF := by decide

theorem test_witness_MaskedIrqStaysPending :
    let s := { boundary .nmos6502 with pendingIRQ := true, flags := allSet }
    s.t = 0 ∧ s.pendingNMI = false ∧ s.pendingIRQ = true ∧ s.flags.i = true := by decide

theorem test_witness_InstructionsKeepLatchesAndConfiguration : Answers .rti (nmos [] []) := ⟨_, rfl⟩

theorem test_witness_InterruptThenRtiResumes :
    let s := { boundary .nmos6502 with pendingIRQ := true }
    s.t = 0 ∧ Memory.wf s.mem = true ∧ StackIsRam s ∧ Takes s .irq :=
  ⟨rfl, by decide, stackIsRam_default .nmos6502 rfl, .inr ⟨rfl, rfl, rfl, rfl⟩⟩
/-- The IRQ entered from the common state. -/
def entered : State := takeInterrupt .irq (boundary .nmos6502)

/-- A handler or subroutine that wrote memory elsewhere and changed A, and left the bytes of the stack. -/
def elsewhere (t : State) : State := { t with mem := Memory.set t.mem 0x0010 0x77, a := 0x99 }

theorem elsewhere_keeps_stack (t : State) (hw : Memory.wf t.mem = true) (sp : Byte) :
    byteAt (elsewhere t) (stackAddr sp) = byteAt t (stackAddr sp) :=
  Memory.get_set_ne hw (a := 0x0010) (b := (stackAddr sp).toNat) (by revert sp; decide) 0x77

theorem test_witness_InterruptThenRtiResumes_handler :
    (elsewhere entered).sp = entered.sp ∧ (elsewhere entered).cfg = entered.cfg ∧
      SameBytes [stackAddr 0xFF, stackAddr 0xFE, stackAddr 0xFD] entered (elsewhere entered) := by
  refine ⟨rfl, rfl, ?_⟩
  simp [SameBytes, elsewhere_keeps_stack entered (by decide)]
/-- It did write: memory differs. -/
theorem test_witness_InterruptThenRtiResumes_handler_wrote : (elsewhere entered).mem ≠ entered.mem := by decide
theorem test_witness_JsrThenRtsReturns :
    Memory.wf (nmos [0x20, 0x00, 0x10] []).mem = true ∧ StackIsRam (nmos [0x20, 0x00, 0x10] []) :=
  ⟨by decide, stackIsRam_default .nmos6502 rfl⟩
theorem test_witness_BrkThenRtiSkipsTheSignature :
    Memory.wf (cmos [0x00, 0xEA] []).mem = true ∧ StackIsRam (cmos [0x00, 0xEA] []) :=
  ⟨by decide, stackIsRam_default .cmos65c02 rfl⟩
theorem test_witness_PullGivesBackWhatWasPushed : Memory.wf (cmos [0x48] []).mem = true ∧ StackIsRam (cmos [0x48] []) :=
  ⟨by decide, stackIsRam_default .cmos65c02 rfl⟩

theorem test_witness_StepKeepsInvariant : (nmos [0xEA] []).Inv ∧ ∃ t, step (nmos [0xEA] []) = .next t :=
  ⟨⟨rfl, by decide, by decide⟩, _, rfl⟩
theorem test_witness_StepKeepsConfiguration : ∃ t, step (cmos [0x5C] []) = .next t := ⟨_, rfl⟩
theorem test_witness_OnlyTheStubSetsTheIllegalMark : ∃ t, step (nmos [0x02] []) = .next t := ⟨_, rfl⟩
theorem test_witness_OnlyTheStubSetsTheIllegalMark_runs :
    RunsInstruction (nmos [0x02] []) ∧
      (decodeOpcode (nmos [0x02] []).cfg.variant (busAnswer (nmos [0x02] []).pc (nmos [0x02] []))).isIllegal = true :=
  ⟨⟨rfl, rfl, .inl rfl⟩, by decide⟩

theorem test_witness_OneBusAccessPerCycle : Answers .inx (nmos [] []) ∧ Instr.inx.isIllegal = false := ⟨⟨_, rfl⟩, rfl⟩
theorem test_witness_OneBusAccessPerCycle_stub : Answers (.illegal 0x02) (nmos [] []) ∧ (Instr.illegal 0x02).isIllegal = true :=
  ⟨⟨_, rfl⟩, rfl⟩
/-- STA writes no flag and no register, so it meets the premise of every clause. -/
theorem test_witness_OnlyWritersChangeAFlag : Answers (.sta .zp) (nmos [] []) ∧
    writesN (.sta .zp) = false ∧ writesV (.sta .zp) = false ∧ writesD (.sta .zp) = false ∧ writesI (.sta .zp) = false ∧
    writesZ (.sta .zp) = false ∧ writesC (.sta .zp) = false :=
  ⟨⟨_, rfl⟩, rfl, rfl, rfl, rfl, rfl, rfl⟩
theorem test_witness_OnlyWritersChangeARegister : Answers (.sta .zp) (nmos [] []) ∧
    writesA (.sta .zp) = false ∧ writesX (.sta .zp) = false ∧ writesY (.sta .zp) = false ∧ writesSP (.sta .zp) = false :=
  ⟨⟨_, rfl⟩, rfl, rfl, rfl, rfl⟩
theorem test_witness_OnlyStoresWrite : Answers (.lda .imm) (nmos [] []) ∧ storesMemory (.lda .imm) (nmos [] []) = false :=
  ⟨⟨_, rfl⟩, rfl⟩
theorem test_witness_SequentialInstructionsAdvancePC :
    Answers (.nop .abs8) { cmos [] [] with pc := 0xFFFF } ∧ (Instr.nop .abs8).flow = .none := ⟨⟨_, rfl⟩, rfl⟩
theorem test_witness_HooksFired : Answers .brk (nmos [] []) := ⟨_, rfl⟩
theorem test_witness_OnlyAdcSbcPhpAndBrkReadTheDecimalFlag :
    (∀ m, Instr.plp ≠ .adc m) ∧ (∀ m, Instr.plp ≠ .sbc m) ∧ Instr.plp ≠ .php ∧ Instr.plp ≠ .brk ∧ Answers .plp (nmos [] []) :=
  ⟨(fun _ h => by cases h), (fun _ h => by cases h), by decide, by decide, _, rfl⟩

theorem test_witness_EffectiveAddresses : AllRam { nmos [0xFF, 0xFF] [] with x := 0xFF } :=
  allRam_default .nmos6502 rfl
theorem test_witness_AddressingCycles : AllRam { nmos [0xF0, 0x12] [] with y := 0x20 } :=
  allRam_default .nmos6502 rfl

/-- The statements on storing instructions ask only for canonical memory; both ends of `StoresAt`'s case are met. -/
theorem test_witness_Stores : Memory.wf (nmos [0x10] [(0x10, 0x80)]).mem = true ∧
    (nmos [0x10] []).isRam (storeAddr .zp (nmos [0x10] [])) = true := by decide
theorem test_witness_Stores_no_ram : Memory.wf noRam.mem = true ∧ ∀ a : Word, noRam.isRam a = false :=
  ⟨rfl, fun _ => rfl⟩
theorem test_witness_IncrementsAndDecrements : Memory.wf (nmos [0xFF] [(0xFF, 0xFF)]).mem = true := by decide
theorem test_witness_ShiftsAndRotates : Memory.wf (nmos [0x00] [(0x00, 0x80)]).mem = true := by decide
theorem test_witness_TestAndSetOrResetBits : Memory.wf (cmos [0x10] [(0x10, 0x30)]).mem = true := by decide
theorem test_witness_ResetAndSetMemoryBits : Memory.wf (cmos [0x20] [(0x20, 0xFF)]).mem = true := by decide
theorem test_witness_JumpToSubroutine :
    Memory.wf (nmos [0x00, 0x10] []).mem = true ∧ (nmos [] []).isRam (stackAddr 0x00) = true ∧
      (nmos [] []).isRam (stackAddr (0x00 - 1)) = true := by decide
theorem test_witness_BreakSequence :
    let s := { cmos [0xEA] [] with sp := 0x01 }
    Memory.wf s.mem = true ∧ s.isRam (stackAddr s.sp) = true ∧ s.isRam (stackAddr (s.sp - 1)) = true ∧
      s.isRam (stackAddr (s.sp - 2)) = true := by decide
theorem test_witness_Pushes : Memory.wf (cmos [] [(0x0100, 0x7F)]).mem = true := by decide

theorem test_witness_ReadModifyWriteWritesTwice : (rmwOf (.ror (.mem .abx)) (nmos [] [])).isSome = true ∧
    (rmwOf .smb7 (nmos [] [])).isSome = true ∧ (rmwOf (.trb .abs) (nmos [] [])).isSome = true := by decide
theorem test_witness_RelativeBranches :
    branchCondition .bcc Flags.zero = some true ∧ branchCondition .bcs Flags.zero = some false ∧
      branchCondition .bra allSet = some true := by decide
theorem test_witness_BitBranches : bitBranch .bbr0 = some (0, false) ∧ bitBranch .bbs7 = some (7, true) := by decide
theorem test_witness_Jumps : (nmos [] []).cfg.jmpIndFixed = false ∧ (cmos [] []).cfg.jmpIndFixed = true := by decide
theorem test_witness_FlagInstructions : (flagEffect .sed).isSome = true ∧ (flagEffect .clv).isSome = true := by decide

theorem test_witness_DecimalAdc : IsBcd 0x99 ∧ IsBcd 0x00 ∧ IsBcd 0x90 ∧ IsBcd 0x09 := by
  unfold IsBcd; decide
theorem test_witness_DecimalSbc : IsBcd 0x00 ∧ IsBcd 0x99 := by
  unfold IsBcd; decide

theorem test_witness_HostReset : (nmos [] []).t = 0 ∧ noRam.t = 0 := by decide
theorem test_witness_SnapshotRoundTrip : (nmos [] []).t = 0 ∧ { nmos [] [] with t := 1 }.t ≠ 0 := by decide
theorem test_witness_SnapshotRoundTrip_snapshot :
    ∃ q : Snapshot Unit, q.t ≠ 0 :=
  ⟨{ pc := 0, sp := 0, a := 0, x := 0, y := 0, ps := 0, t := 3, cycles := 0, pendingNMI := false, pendingIRQ := false,
     opcode := 0, vstack := () }, by decide⟩
theorem test_witness_AdvanceClockRunsUntilBudgetOrStop : (cmos [0x03] []).t = 0 := by decide


end Sys2Proof.Tests
end

section
/-! The step's progress: every instruction but the illegal stub ends at a boundary after a `Progress` of its first state, and so
the step writes no configuration (R10). -/

namespace Sys2Proof.Machine

/-- The outcome is the boundary reached after some progress from `s`. -/
def EndsAfterProgress (s : State) (o : Host.Outcome State Fault Refusal) : Prop :=
  ∃ u, o = finish u ∧ Progress s u

/-- An outcome that ends after progress has the configuration of the state it started from. -/
theorem EndsAfterProgress.cfg_eq {s t : State} {o : Host.Outcome State Fault Refusal} (h : EndsAfterProgress s o)
    (ht : o = .next t) : t.cfg = s.cfg := by
  obtain ⟨u, rfl, hu⟩ := h
  cases ht
  exact hu.cfg

theorem Progress.finish {s u : State} (h : Progress s u) : EndsAfterProgress s (finish u) := ⟨u, rfl, h⟩

/-! ## Progress of the shared sequences -/

theorem Progress.implied (s : State) : Progress s (implied s) := Progress.readCycle s.pc s

theorem Progress.loadOperand (m : ReadMode) (s : State) : Progress s (loadOperand m s) :=
  (OperandPhase.loadOperand m s).toProgress

theorem Progress.setSP (b : Byte) (s : State) : Progress s (setSP b s) := Progress.of_eq rfl rfl rfl rfl rfl rfl

theorem Progress.setNZ (v : Byte) (s : State) : Progress s (setNZ v s) := Progress.setFlags _ s

theorem Progress.setNZC (v : Byte) (c : Bool) (s : State) : Progress s (setNZC v c s) := Progress.setFlags _ s

theorem Progress.compare (r m : Byte) (s : State) : Progress s (compare r m s) := Progress.setFlags _ s

theorem Progress.testBits (m : Byte) (s : State) : Progress s (testBits m s) := Progress.setFlags _ s

theorem Progress.bitFlags (m : ReadMode) (v : Byte) (s : State) : Progress s (bitFlags m v s) := by
  cases m with
  | imm => exact Progress.testBits v s
  | mem m => exact (Progress.testBits v s).trans (Progress.setFlags _ _)

theorem Progress.applyArith (q : Arith) (s : State) : Progress s (applyArith q s) :=
  (pureDest_setA.progress q.r s).trans (Progress.setFlags _ _)

theorem Progress.pullByte {put : Byte → State → State} (hp : PureDest put) (s : State) : Progress s (pullByte put s) :=
  ((Progress.implied s).trans (Progress.readCycle _ _)).trans (Progress.pullTo hp _)

theorem Progress.takeBranch_if (cond : Bool) (s : State) : Progress s (if cond then takeBranch s else s) := by
  split
  · exact (OperandPhase.takeBranch s).toProgress
  · exact Progress.refl s

/-! ## Progress of the jumps and of the eight-cycle NOP -/

theorem Progress.jumpAbs (s : State) : Progress s (jumpAbs s) :=
  ((Progress.fetchTo pureDest_setADL s).trans (Progress.fetchTo pureDest_setADH _)).trans (Progress.setPC _ _)

theorem Progress.fetchIndirect (s : State) : Progress s (fetchIndirect s) :=
  (Progress.fetchTo pureDest_setIAL s).trans (Progress.fetchTo pureDest_setIAH _)

theorem Progress.fetchBase (s : State) : Progress s (fetchBase s) :=
  (Progress.fetchTo pureDest_setBAL s).trans (Progress.fetchTo pureDest_setBAH _)

/-- Two reads, at any two addresses, of the bytes of the next PC. -/
theorem Progress.jumpThrough (lo hi w : Word) (s : State) :
    Progress s (Machine.setPC w (Machine.readTo setADH hi (Machine.readTo setADL lo s))) :=
  ((Progress.readTo pureDest_setADL lo s).trans (Progress.readTo pureDest_setADH hi _)).trans (Progress.setPC w _)

theorem Progress.jumpIndirectBuggy (s : State) : Progress s (jumpIndirectBuggy s) :=
  (Progress.fetchIndirect s).trans (Progress.jumpThrough _ _ _ _)

theorem Progress.jumpIndirectFixed (s : State) : Progress s (jumpIndirectFixed s) :=
  ((Progress.fetchIndirect s).trans (Progress.readCycle _ _)).trans (Progress.jumpThrough _ _ _ _)

theorem Progress.jumpIndexed (s : State) : Progress s (jumpIndexed s) :=
  (((Progress.fetchBase s).trans (Progress.readCycle _ _)).trans (OperandPhase.setEA _ _).toProgress).trans
    (Progress.jumpThrough _ _ _ _)

theorem Progress.nopEight (s : State) : Progress s (nopEight s) :=
  have operand := (Progress.fetchTo pureDest_setADL s).trans (Progress.fetchTo pureDest_setADH _)
  ((((operand.trans (Progress.readCycle _ _)).trans (Progress.readCycle _ _)).trans (Progress.readCycle _ _)).trans
    (Progress.readCycle _ _)).trans (Progress.readCycle _ _)

/-! ## Progress of each shape of instruction -/

theorem loadInto_progress {put : Byte → State → State} (hp : PureDest put) (m : ReadMode) (s : State) :
    EndsAfterProgress s (loadInto put m s) :=
  ((Progress.loadOperand m s).trans (hp.withNZ.progress _ _)).finish

theorem transfer_progress {put : Byte → State → State} (hp : PureDest put) (v : Byte) (s : State) :
    EndsAfterProgress s (transfer put v s) :=
  ((Progress.implied s).trans (hp.withNZ.progress v _)).finish

theorem storeOperand_progress (m : AddrMode) (v : Byte) (s : State) :
    EndsAfterProgress s (finish (storeOperand m v s)) :=
  (Progress.storeOperand m v s).finish

theorem stepOperand_progress (f : Byte → Byte) (m : RmwMode) (s : State) : EndsAfterProgress s (stepOperand f m s) := by
  cases m with
  | acc => exact transfer_progress pureDest_setA (f s.a) s
  | mem m => exact ((Progress.modifyOperand m f s).trans (Progress.setNZ _ _)).finish

theorem shiftOp_progress (f : Byte → Byte) (out : Nat) (m : RmwMode) (s : State) :
    EndsAfterProgress s (shiftOp f out m s) := by
  cases m with
  | acc => exact (((Progress.implied s).trans (pureDest_setA.progress _ _)).trans (Progress.setNZC _ _ _)).finish
  | mem m => exact ((Progress.modifyOperand m f s).trans (Progress.setNZC _ _ _)).finish

theorem compare_progress (r : State → Byte) (m : ReadMode) (s : State) :
    EndsAfterProgress s (finish (compare (r (loadOperand m s)) (loadOperand m s).lat.data (loadOperand m s))) :=
  ((Progress.loadOperand m s).trans (Progress.compare _ _ _)).finish

theorem applyArith_progress (q : Arith) (m : ReadMode) (s : State) :
    EndsAfterProgress s (finish (applyArith q (loadOperand m s))) :=
  ((Progress.loadOperand m s).trans (Progress.applyArith q _)).finish

theorem logicOp_progress (f : Byte → Byte → Byte) (m : ReadMode) (s : State) : EndsAfterProgress s (logicOp f m s) :=
  ((Progress.loadOperand m s).trans (pureDest_setA.withNZ.progress _ _)).finish

theorem testModify_progress (f : Byte → Byte) (m : AddrMode) (s : State) :
    EndsAfterProgress s (finish (testBits (modifyOperand m f s).lat.data (modifyOperand m f s))) :=
  ((Progress.modifyOperand m f s).trans (Progress.testBits _ _)).finish

theorem resetBit_progress (n : Nat) (s : State) : EndsAfterProgress s (resetBit n s) :=
  (Progress.modifyOperand .zp _ s).finish

theorem setBit_progress (n : Nat) (s : State) : EndsAfterProgress s (setBit n s) :=
  (Progress.modifyOperand .zp _ s).finish

theorem branchIf_progress (cond : Bool) (s : State) : EndsAfterProgress s (branchIf cond s) :=
  ((Progress.fetchTo pureDest_setOFF s).trans (Progress.takeBranch_if cond _)).finish

theorem branchOnBit_progress (n : Nat) (value : Bool) (s : State) : EndsAfterProgress s (branchOnBit n value s) :=
  ((OperandPhase.afterBitOffset s).toProgress.trans (Progress.takeBranch_if _ _)).finish

theorem pushByte_progress (v : Byte) (s : State) : EndsAfterProgress s (pushByte v s) :=
  ((Progress.implied s).trans (Progress.push v _)).finish

theorem pullRegister_progress {put : Byte → State → State} (hp : PureDest put) (s : State) :
    EndsAfterProgress s (pullRegister put s) :=
  (Progress.pullByte hp.withNZ s).finish

/-- The flag instructions: the dummy read at PC, then any flags. -/
theorem flagOp_progress (f : Flags) (s : State) : EndsAfterProgress s (finish { implied s with flags := f }) :=
  ((Progress.implied s).trans (Progress.setFlags f _)).finish

theorem execTxs_progress (s : State) : EndsAfterProgress s (execTxs s) :=
  ((Progress.implied s).trans (Progress.setSP _ _)).finish

theorem execBit_progress (m : ReadMode) (s : State) : EndsAfterProgress s (execBit m s) :=
  ((Progress.loadOperand m s).trans (Progress.bitFlags m _ _)).finish

theorem execJmp_progress (m : JmpMode) (s : State) : EndsAfterProgress s (execJmp m s) := by
  cases m with
  | abs => exact (Progress.jumpAbs s).finish
  | ind =>
    by_cases fixed : s.cfg.jmpIndFixed = true
    · simpa only [execJmp, if_pos fixed] using (Progress.jumpIndirectFixed s).finish
    · simpa only [execJmp, if_neg fixed] using (Progress.jumpIndirectBuggy s).finish
  | iax => exact (Progress.jumpIndexed s).finish

theorem execJsr_progress (s : State) : EndsAfterProgress s (execJsr s) :=
  have pushes := (((Progress.fetchTo pureDest_setADL s).trans (Progress.readCycle _ _)).trans (Progress.push _ _)).trans
    (Progress.push _ _)
  (((pushes.trans (Progress.readTo pureDest_setADH _ _)).trans (Progress.emit _ _)).trans (Progress.setPC _ _)).finish

theorem execRts_progress (s : State) : EndsAfterProgress s (execRts s) :=
  have pulls := (Progress.pullByte pureDest_setADL s).trans (Progress.pullTo pureDest_setADH _)
  (((pulls.trans (Progress.readCycle _ _)).trans (Progress.setPC _ _)).trans (Progress.emit _ _)).finish

theorem execBrk_progress (s : State) : EndsAfterProgress s (execBrk s) :=
  ((((Progress.readCycle _ s).trans (Progress.setPC _ _)).trans (Progress.enterHandler _ _ _ _)).trans
    (Progress.emit _ _)).finish

theorem execNop_progress (f : NopForm) (s : State) : EndsAfterProgress s (execNop f s) := by
  cases f with
  | imp => exact (Progress.implied s).finish
  | imp1 _ => exact (Progress.refl s).finish
  | imm _ | zp | zpx _ | abs _ => exact (Progress.loadOperand _ s).finish
  | abs8 => exact (Progress.nopEight s).finish

/-! ## Every instruction, and the step -/

/-- Every instruction but the stub of the illegal opcodes, whose idle cycles make no access (R385), ends after progress. -/
theorem exec_progress (i : Instr) (hi : i.isIllegal = false) (s : State) : EndsAfterProgress s (exec i s) := by
  cases i with
  | lda m => exact loadInto_progress pureDest_setA m s
  | ldx m => exact loadInto_progress pureDest_setX m s
  | ldy m => exact loadInto_progress pureDest_setY m s
  | sta m | stx m | sty m | stz m => exact storeOperand_progress m _ s
  | tax | tsx => exact transfer_progress pureDest_setX _ s
  | tay => exact transfer_progress pureDest_setY _ s
  | txa | tya => exact transfer_progress pureDest_setA _ s
  | txs => exact execTxs_progress s
  | adc m | sbc m => exact applyArith_progress _ m s
  | cmp m => exact compare_progress State.a m s
  | cpx m => exact compare_progress State.x m s
  | cpy m => exact compare_progress State.y m s
  | inc m => exact stepOperand_progress (· + 1) m s
  | dec m => exact stepOperand_progress (· - 1) m s
  | inx | dex => exact transfer_progress pureDest_setX _ s
  | iny | dey => exact transfer_progress pureDest_setY _ s
  | and m | ora m | eor m => exact logicOp_progress _ m s
  | bit m => exact execBit_progress m s
  | asl m | lsr m | rol m | ror m => exact shiftOp_progress _ _ m s
  | tsb m | trb m => exact testModify_progress _ m s
  | rmb0 | rmb1 | rmb2 | rmb3 | rmb4 | rmb5 | rmb6 | rmb7 => exact resetBit_progress _ s
  | smb0 | smb1 | smb2 | smb3 | smb4 | smb5 | smb6 | smb7 => exact setBit_progress _ s
  | bcc | bcs | beq | bne | bmi | bpl | bvc | bvs | bra => exact branchIf_progress _ s
  | bbr0 | bbr1 | bbr2 | bbr3 | bbr4 | bbr5 | bbr6 | bbr7 | bbs0 | bbs1 | bbs2 | bbs3 | bbs4 | bbs5 | bbs6 | bbs7 =>
    exact branchOnBit_progress _ _ s
  | jmp m => exact execJmp_progress m s
  | jsr => exact execJsr_progress s
  | rts => exact execRts_progress s
  | rti => exact (Progress.returnFromInterrupt s).finish
  | brk => exact execBrk_progress s
  | pha | php | phx | phy => exact pushByte_progress _ s
  | pla => exact pullRegister_progress pureDest_setA s
  | plp => exact (Progress.pullByte pureDest_setStatusBits s).finish
  | plx => exact pullRegister_progress pureDest_setX s
  | ply => exact pullRegister_progress pureDest_setY s
  | clc | sec | cli | sei | cld | sed | clv => exact flagOp_progress _ s
  | nop f => exact execNop_progress f s
  | illegal op => exact absurd hi (by simp [Instr.isIllegal])

/-- No instruction writes the configuration. -/
theorem exec_cfg {i : Instr} {s t : State} (h : exec i s = .next t) : t.cfg = s.cfg := by
  by_cases hi : i.isIllegal = false
  · exact (exec_progress i hi s).cfg_eq h
  · cases i with
    | illegal op => cases h; rfl
    | _ => exact absurd rfl hi

/-- What a step that answers did: it took an interrupt at a boundary, or ran the instruction fetched there. -/
theorem step_cases {s t : State} (h : step s = .next t) :
    s.t = 0 ∧
      ((∃ k, pendingInterrupt s = some k ∧ t = takeInterrupt k s) ∨
        (pendingInterrupt s = none ∧ exec (decodeOpcode s.cfg.variant (busAnswer s.pc s)) (fetchOpcode s) = .next t)) := by
  unfold step at h
  split at h
  case isTrue ht =>
    refine ⟨ht, ?_⟩
    split at h
    case h_1 k hk => exact .inl ⟨k, hk, by cases h; rfl⟩
    case h_2 hk => exact .inr ⟨hk, h⟩
  case isFalse => cases h

@[simp] theorem fetchOpcode_cfg (s : State) : (fetchOpcode s).cfg = s.cfg := rfl

/-- Settles O16: an interrupt sequence keeps the configuration, and so do the opcode fetch and the instruction it leads to. -/
theorem stepKeepsConfiguration : Obligations.StepKeepsConfiguration := by
  intro s t h
  obtain ⟨-, ⟨k, -, rfl⟩ | ⟨-, hrun⟩⟩ := step_cases h
  · exact takeInterrupt_cfg k s
  · exact (exec_cfg hrun).trans (fetchOpcode_cfg s)

end Sys2Proof.Machine
end

section
/-! The machine's invariant (R49, R85, R89): whatever is built of progress keeps its memory and history part, the stub's idle
cycles and the clearing of a latch too, and the end of an instruction adds T = 0. -/

namespace Sys2Proof.Machine

/-- The part of the invariant that holds inside an instruction too: canonical memory, and accesses numbered in program order
below the cycle counter (R85, R89). -/
def State.Sound (s : State) : Prop :=
  Memory.wf s.mem = true ∧ historyBelow s.cycles s.history = true

theorem State.Inv.sound {s : State} (h : s.Inv) : s.Sound := h.2

/-- The end of an instruction makes a boundary of a sound state (R49). -/
theorem State.Sound.endInstr {s : State} (h : s.Sound) : (endInstr s).Inv := ⟨rfl, h⟩

theorem Progress.sound {s u : State} (h : Progress s u) (hs : s.Sound) : u.Sound :=
  ⟨h.wf hs.1, h.below hs.2⟩

theorem State.Sound.clearLatch {s : State} (h : s.Sound) (k : Interrupt) : (clearLatch k s).Sound := by
  cases k <;> exact h

/-- Cycles without an access keep the order of the accesses (R385). -/
theorem State.Sound.idleCycles {s : State} (h : s.Sound) (k : Nat) : (idleCycles k s).Sound :=
  ⟨h.1, historyBelow_mono (Nat.le_add_right _ _) h.2⟩

/-- An interrupt sequence (R407) ends at a boundary that meets the invariant. -/
theorem takeInterrupt_inv {s : State} (h : s.Sound) (k : Interrupt) : (takeInterrupt k s).Inv := by
  rw [takeInterrupt_eq]
  have cleared := ((Progress.readTo pureDest_setOpcode s.pc s).sound h).clearLatch k
  exact (((Progress.readCycle s.pc _).trans (Progress.enterHandler _ _ _ _)).sound cleared).endInstr

/-- An instruction is the stub or none of the illegal ones (R109). -/
theorem isIllegal_eq_false_or (i : Instr) : i.isIllegal = false ∨ ∃ op, i = .illegal op := by
  cases i with
  | illegal op => exact .inr ⟨op, rfl⟩
  | _ => exact .inl rfl

/-- An instruction ends at a boundary that meets the invariant. -/
theorem exec_inv {i : Instr} {s t : State} (h : s.Sound) (ht : exec i s = .next t) : t.Inv := by
  obtain hi | ⟨op, rfl⟩ := isIllegal_eq_false_or i
  · obtain ⟨u, hu, hp⟩ := exec_progress i hi s
    cases hu.symm.trans ht
    exact (hp.sound h).endInstr
  · cases ht
    exact (State.Sound.idleCycles (s := setPC _ (markIllegal s)) h _).endInstr

/-- Settles O14: the interrupt sequence keeps the invariant, and so do the opcode fetch and the instruction it leads to. -/
theorem stepKeepsInvariant : Obligations.StepKeepsInvariant := by
  intro s t hs h
  obtain ⟨-, ⟨k, -, rfl⟩ | ⟨-, hrun⟩⟩ := step_cases h
  · exact takeInterrupt_inv hs.sound k
  · exact exec_inv ((Progress.fetchTo pureDest_setOpcode s).sound hs.sound) hrun

/-- Settles O15: memory lists nothing, and the two vector reads are numbered 1 and 0. -/
theorem resetMeetsInvariant : Obligations.ResetMeetsInvariant :=
  ⟨rfl, reset_mem_wf, by decide⟩

end Sys2Proof.Machine
end

section
/-! What an instruction writes (R31 to R34, R41 to R46, R55): `Frame i` lets a state change only what `i` is listed to write.
Every operation stays within the frame of an instruction that is listed to write what the operation writes. -/

namespace Sys2Proof.Machine

open Sys2Proof.Certificates

/-- The outcome is the boundary after a state that stands in the relation `R` to `s`. -/
def EndsIn (R : State → State → Prop) (s : State) (o : Host.Outcome State Fault Refusal) : Prop :=
  ∃ u, o = finish u ∧ R s u

theorem EndsIn.of_next {R : State → State → Prop} {s t : State} {o : Host.Outcome State Fault Refusal} (h : EndsIn R s o)
    (ht : o = .next t) : ∃ u, R s u ∧ t = endInstr u := by
  obtain ⟨u, hu, hR⟩ := h
  exact ⟨u, hR, by cases hu.symm.trans ht; rfl⟩

/-- From `s` to `t` only the registers and flags changed that the instruction is listed to write, and the illegal mark only if it
is the stub. -/
structure Frame (i : Instr) (s t : State) : Prop where
  a     : writesA i = false → t.a = s.a
  x     : writesX i = false → t.x = s.x
  y     : writesY i = false → t.y = s.y
  sp    : writesSP i = false → t.sp = s.sp
  flagN : writesN i = false → t.flags.n = s.flags.n
  flagV : writesV i = false → t.flags.v = s.flags.v
  flagD : writesD i = false → t.flags.d = s.flags.d
  flagI : writesI i = false → t.flags.i = s.flags.i
  flagZ : writesZ i = false → t.flags.z = s.flags.z
  flagC : writesC i = false → t.flags.c = s.flags.c
  mark  : i.isIllegal = false → t.illegalSeen = s.illegalSeen

/-- A frame asks nothing of what the instruction is listed to write. -/
theorem of_written {w : Bool} {p : Prop} (h : w = true) (h' : w = false) : p :=
  absurd (h.symm.trans h') Bool.noConfusion

section
variable {i : Instr}

theorem Frame.of_eq {s t : State} (ha : t.a = s.a) (hx : t.x = s.x) (hy : t.y = s.y) (hsp : t.sp = s.sp)
    (hf : t.flags = s.flags) (hm : t.illegalSeen = s.illegalSeen) : Frame i s t where
  a _ := ha
  x _ := hx
  y _ := hy
  sp _ := hsp
  flagN _ := by rw [hf]
  flagV _ := by rw [hf]
  flagD _ := by rw [hf]
  flagI _ := by rw [hf]
  flagZ _ := by rw [hf]
  flagC _ := by rw [hf]
  mark _ := hm

theorem Frame.refl (s : State) : Frame i s s := .of_eq rfl rfl rfl rfl rfl rfl

theorem Frame.trans {s t u : State} (h : Frame i s t) (k : Frame i t u) : Frame i s u where
  a w := (k.a w).trans (h.a w)
  x w := (k.x w).trans (h.x w)
  y w := (k.y w).trans (h.y w)
  sp w := (k.sp w).trans (h.sp w)
  flagN w := (k.flagN w).trans (h.flagN w)
  flagV w := (k.flagV w).trans (h.flagV w)
  flagD w := (k.flagD w).trans (h.flagD w)
  flagI w := (k.flagI w).trans (h.flagI w)
  flagZ w := (k.flagZ w).trans (h.flagZ w)
  flagC w := (k.flagC w).trans (h.flagC w)
  mark w := (k.mark w).trans (h.mark w)

theorem Frame.finish {s u : State} (h : Frame i s u) : EndsIn (Frame i) s (finish u) := ⟨u, rfl, h⟩

/-! ## The frame of each operation -/

theorem OperandPhase.frame {s t : State} (h : OperandPhase s t) : Frame i s t :=
  .of_eq h.a h.x h.y h.sp h.flags h.illegalSeen

theorem Frame.implied (s : State) : Frame i s (implied s) := (OperandPhase.dummyRead s.pc s).frame

theorem Frame.setA (h : writesA i = true) (b : Byte) (s : State) : Frame i s (setA b s) :=
  { Frame.refl s with a := of_written h }

theorem Frame.setX (h : writesX i = true) (b : Byte) (s : State) : Frame i s (setX b s) :=
  { Frame.refl s with x := of_written h }

theorem Frame.setY (h : writesY i = true) (b : Byte) (s : State) : Frame i s (setY b s) :=
  { Frame.refl s with y := of_written h }

theorem Frame.setSP (h : writesSP i = true) (b : Byte) (s : State) : Frame i s (setSP b s) :=
  { Frame.refl s with sp := of_written h }

theorem Frame.setNZ (hn : writesN i = true) (hz : writesZ i = true) (b : Byte) (s : State) : Frame i s (setNZ b s) :=
  { Frame.refl s with flagN := of_written hn, flagZ := of_written hz }

theorem Frame.setNZC (hn : writesN i = true) (hz : writesZ i = true) (hc : writesC i = true) (b : Byte) (c : Bool) (s : State) :
    Frame i s (setNZC b c s) :=
  { Frame.refl s with flagN := of_written hn, flagZ := of_written hz, flagC := of_written hc }

theorem Frame.compare (hn : writesN i = true) (hz : writesZ i = true) (hc : writesC i = true) (r m : Byte) (s : State) :
    Frame i s (compare r m s) :=
  { Frame.refl s with flagN := of_written hn, flagZ := of_written hz, flagC := of_written hc }

theorem Frame.testBits (hz : writesZ i = true) (m : Byte) (s : State) : Frame i s (testBits m s) :=
  { Frame.refl s with flagZ := of_written hz }

theorem Frame.applyArith (ha : writesA i = true) (hn : writesN i = true) (hv : writesV i = true) (hz : writesZ i = true)
    (hc : writesC i = true) (q : Arith) (s : State) : Frame i s (applyArith q s) :=
  { Frame.refl s with
    a := of_written ha, flagN := of_written hn, flagV := of_written hv, flagZ := of_written hz, flagC := of_written hc }

/-- The instruction is listed to write every flag: PLP and RTI. -/
def WritesAllFlags (i : Instr) : Prop :=
  writesN i = true ∧ writesV i = true ∧ writesD i = true ∧ writesI i = true ∧ writesZ i = true ∧ writesC i = true

theorem Frame.setStatusBits (h : WritesAllFlags i) (b : Byte) (s : State) : Frame i s (setStatusBits b s) :=
  have ⟨hn, hv, hd, hi, hz, hc⟩ := h
  { Frame.refl s with
    flagN := of_written hn, flagV := of_written hv, flagD := of_written hd
    flagI := of_written hi, flagZ := of_written hz, flagC := of_written hc }

theorem Frame.writeCycle (addr : Word) (b : Byte) (s : State) : Frame i s (writeCycle addr b s) :=
  .of_eq rfl rfl rfl rfl rfl rfl

theorem Frame.emit (h : Hook) (s : State) : Frame i s (emit h s) := .of_eq rfl rfl rfl rfl rfl rfl

theorem Frame.storeOperand (m : AddrMode) (b : Byte) (s : State) : Frame i s (storeOperand m b s) :=
  (OperandPhase.address true m s).frame.trans (Frame.writeCycle _ _ _)

theorem Frame.modifyOperand (m : AddrMode) (f : Byte → Byte) (s : State) : Frame i s (modifyOperand m f s) :=
  (((OperandPhase.address true m s).trans (OperandPhase.readTo latchDest_setDATA _ _)).frame.trans
    (Frame.writeCycle _ _ _)).trans (Frame.writeCycle _ _ _)

theorem Frame.push (h : writesSP i = true) (b : Byte) (s : State) : Frame i s (push b s) :=
  (Frame.writeCycle _ b s).trans (Frame.setSP h (s.sp - 1) _)

theorem Frame.pullTo {put : Byte → State → State} (hp : ∀ b s, Frame i s (put b s)) (h : writesSP i = true) (s : State) :
    Frame i s (pullTo put s) :=
  ((Frame.setSP h (s.sp + 1) s).trans (OperandPhase.readCycle _ _).frame).trans (hp _ _)

theorem Frame.pullByte {put : Byte → State → State} (hp : ∀ b s, Frame i s (put b s)) (h : writesSP i = true) (s : State) :
    Frame i s (pullByte put s) :=
  ((Frame.implied s).trans (OperandPhase.dummyRead _ _).frame).trans (Frame.pullTo hp h _)

theorem LatchDest.frame {put : Byte → State → State} (hp : LatchDest put) (b : Byte) (s : State) : Frame i s (put b s) :=
  (hp b s).frame

theorem Frame.enterHandler (hsp : writesSP i = true) (hd : writesD i = true) (hi : writesI i = true) (b clearsD : Bool)
    (vec : Word) (s : State) : Frame i s (enterHandler b clearsD vec s) :=
  { Frame.refl s with sp := of_written hsp, flagD := of_written hd, flagI := of_written hi }

theorem Frame.takeBranch_if (cond : Bool) (s : State) : Frame i s (if cond then takeBranch s else s) := by
  split
  · exact (OperandPhase.takeBranch s).frame
  · exact Frame.refl s

/-! ## The frame of each shape of instruction -/

theorem loadInto_frame {put : Byte → State → State} (hp : ∀ b s, Frame i s (put b s)) (hn : writesN i = true)
    (hz : writesZ i = true) (m : ReadMode) (s : State) : EndsIn (Frame i) s (loadInto put m s) :=
  (((OperandPhase.loadOperand m s).frame.trans (hp _ _)).trans (Frame.setNZ hn hz _ _)).finish

theorem transfer_frame {put : Byte → State → State} (hp : ∀ b s, Frame i s (put b s)) (hn : writesN i = true)
    (hz : writesZ i = true) (v : Byte) (s : State) : EndsIn (Frame i) s (transfer put v s) :=
  (((Frame.implied s).trans (hp v _)).trans (Frame.setNZ hn hz v _)).finish

theorem stepOperand_frame (m : RmwMode) (ha : m = .acc → writesA i = true) (hn : writesN i = true) (hz : writesZ i = true)
    (f : Byte → Byte) (s : State) : EndsIn (Frame i) s (stepOperand f m s) := by
  cases m with
  | acc => exact transfer_frame (Frame.setA (ha rfl)) hn hz (f s.a) s
  | mem m => exact ((Frame.modifyOperand m f s).trans (Frame.setNZ hn hz _ _)).finish

theorem shiftOp_frame (m : RmwMode) (ha : m = .acc → writesA i = true) (hn : writesN i = true) (hz : writesZ i = true)
    (hc : writesC i = true) (f : Byte → Byte) (out : Nat) (s : State) : EndsIn (Frame i) s (shiftOp f out m s) := by
  cases m with
  | acc => exact (((Frame.implied s).trans (Frame.setA (ha rfl) _ _)).trans (Frame.setNZC hn hz hc _ _ _)).finish
  | mem m => exact ((Frame.modifyOperand m f s).trans (Frame.setNZC hn hz hc _ _ _)).finish

theorem logicOp_frame (ha : writesA i = true) (hn : writesN i = true) (hz : writesZ i = true) (f : Byte → Byte → Byte)
    (m : ReadMode) (s : State) : EndsIn (Frame i) s (logicOp f m s) :=
  (((OperandPhase.loadOperand m s).frame.trans (Frame.setA ha _ _)).trans (Frame.setNZ hn hz _ _)).finish

theorem compare_frame (hn : writesN i = true) (hz : writesZ i = true) (hc : writesC i = true) (r : State → Byte) (m : ReadMode)
    (s : State) :
    EndsIn (Frame i) s (finish (compare (r (loadOperand m s)) (loadOperand m s).lat.data (loadOperand m s))) :=
  ((OperandPhase.loadOperand m s).frame.trans (Frame.compare hn hz hc _ _ _)).finish

theorem applyArith_frame (ha : writesA i = true) (hn : writesN i = true) (hv : writesV i = true) (hz : writesZ i = true)
    (hc : writesC i = true) (q : Arith) (m : ReadMode) (s : State) :
    EndsIn (Frame i) s (finish (applyArith q (loadOperand m s))) :=
  ((OperandPhase.loadOperand m s).frame.trans (Frame.applyArith ha hn hv hz hc q _)).finish

theorem testModify_frame (hz : writesZ i = true) (f : Byte → Byte) (m : AddrMode) (s : State) :
    EndsIn (Frame i) s (finish (testBits (modifyOperand m f s).lat.data (modifyOperand m f s))) :=
  ((Frame.modifyOperand m f s).trans (Frame.testBits hz _ _)).finish

theorem branchIf_frame (cond : Bool) (s : State) : EndsIn (Frame i) s (branchIf cond s) :=
  ((OperandPhase.fetchTo latchDest_setOFF s).frame.trans (Frame.takeBranch_if cond _)).finish

theorem branchOnBit_frame (n : Nat) (value : Bool) (s : State) : EndsIn (Frame i) s (branchOnBit n value s) :=
  ((OperandPhase.afterBitOffset s).frame.trans (Frame.takeBranch_if _ _)).finish

theorem pushByte_frame (h : writesSP i = true) (v : Byte) (s : State) : EndsIn (Frame i) s (pushByte v s) :=
  ((Frame.implied s).trans (Frame.push h v _)).finish

theorem pullRegister_frame {put : Byte → State → State} (hp : ∀ b s, Frame i s (put b s)) (hn : writesN i = true)
    (hz : writesZ i = true) (hsp : writesSP i = true) (s : State) : EndsIn (Frame i) s (pullRegister put s) :=
  (Frame.pullByte (fun b u => (hp b u).trans (Frame.setNZ hn hz b _)) hsp s).finish

end

/-- BIT (R273): the immediate form writes Z alone. -/
theorem execBit_frame (m : ReadMode) (s : State) : EndsIn (Frame (.bit m)) s (execBit m s) := by
  refine ((OperandPhase.loadOperand m s).frame.trans ?_).finish
  cases m with
  | imm => exact Frame.testBits rfl _ _
  | mem m => exact { Frame.refl _ with flagN := of_written rfl, flagV := of_written rfl, flagZ := of_written rfl }

/-- JMP (abs) with the fixed pointer (R321). -/
theorem execJmp_ind_fixed {s : State} (h : s.cfg.jmpIndFixed = true) : execJmp .ind s = finish (jumpIndirectFixed s) :=
  congrArg Machine.finish (if_pos h)

/-- JMP (abs) with the pointer of the original 6502 (R321). -/
theorem execJmp_ind_buggy {s : State} (h : ¬ s.cfg.jmpIndFixed = true) : execJmp .ind s = finish (jumpIndirectBuggy s) :=
  congrArg Machine.finish (if_neg h)

theorem execJmp_frame (m : JmpMode) (s : State) : EndsIn (Frame (.jmp m)) s (execJmp m s) := by
  cases m with
  | abs => exact ⟨jumpAbs s, rfl, .of_eq rfl rfl rfl rfl rfl rfl⟩
  | ind =>
    by_cases fixed : s.cfg.jmpIndFixed = true
    · exact ⟨jumpIndirectFixed s, execJmp_ind_fixed fixed, .of_eq rfl rfl rfl rfl rfl rfl⟩
    · exact ⟨jumpIndirectBuggy s, execJmp_ind_buggy fixed, .of_eq rfl rfl rfl rfl rfl rfl⟩
  | iax => exact ⟨jumpIndexed s, rfl, .of_eq rfl rfl rfl rfl rfl rfl⟩

theorem execJsr_frame (s : State) : EndsIn (Frame .jsr) s (execJsr s) :=
  have operand := (OperandPhase.fetchTo latchDest_setADL s).trans (OperandPhase.dummyRead _ _)
  ((((operand.frame.trans (Frame.push rfl _ _)).trans (Frame.push rfl _ _)).trans
    (OperandPhase.readTo latchDest_setADH _ _).frame).trans ((Frame.emit _ _).trans (OperandPhase.setPC _ _).frame)).finish

theorem execRts_frame (s : State) : EndsIn (Frame .rts) s (execRts s) :=
  have pulls := (Frame.pullByte latchDest_setADL.frame rfl s).trans (Frame.pullTo latchDest_setADH.frame rfl _)
  ((pulls.trans ((OperandPhase.dummyRead _ _).trans (OperandPhase.setPC _ _)).frame).trans (Frame.emit _ _)).finish

theorem execRti_frame (s : State) : EndsIn (Frame .rti) s (execRti s) :=
  have status := Frame.pullByte (i := .rti) (Frame.setStatusBits ⟨rfl, rfl, rfl, rfl, rfl, rfl⟩) rfl s
  have pulls := (status.trans (Frame.pullTo latchDest_setADL.frame rfl _)).trans (Frame.pullTo latchDest_setADH.frame rfl _)
  ((pulls.trans (OperandPhase.setPC _ _).frame).trans (Frame.emit _ _)).finish

theorem execBrk_frame (s : State) : EndsIn (Frame .brk) s (execBrk s) :=
  have signature := (OperandPhase.readCycle s.pc s).trans (OperandPhase.setPC _ _)
  ((signature.frame.trans (Frame.enterHandler rfl rfl rfl _ _ _ _)).trans (Frame.emit _ _)).finish

theorem execNop_frame (f : NopForm) (s : State) : EndsIn (Frame (.nop f)) s (execNop f s) := by
  cases f with
  | imp => exact (Frame.implied s).finish
  | imp1 _ => exact (Frame.refl s).finish
  | imm _ | zp | zpx _ | abs _ => exact (OperandPhase.loadOperand _ s).frame.finish
  | abs8 => exact ⟨nopEight s, rfl, .of_eq rfl rfl rfl rfl rfl rfl⟩

/-! ## Every instruction -/

/-- Every instruction ends within its frame. -/
theorem exec_frame (i : Instr) (s : State) : EndsIn (Frame i) s (exec i s) := by
  cases i with
  | lda m => exact loadInto_frame (Frame.setA rfl) rfl rfl m s
  | ldx m => exact loadInto_frame (Frame.setX rfl) rfl rfl m s
  | ldy m => exact loadInto_frame (Frame.setY rfl) rfl rfl m s
  | sta m | stx m | sty m | stz m => exact (Frame.storeOperand m _ s).finish
  | tax | tsx | inx | dex => exact transfer_frame (Frame.setX rfl) rfl rfl _ s
  | tay | iny | dey => exact transfer_frame (Frame.setY rfl) rfl rfl _ s
  | txa | tya => exact transfer_frame (Frame.setA rfl) rfl rfl _ s
  | txs => exact ((Frame.implied s).trans (Frame.setSP rfl _ _)).finish
  | adc m | sbc m => exact applyArith_frame rfl rfl rfl rfl rfl _ m s
  | cmp m => exact compare_frame rfl rfl rfl State.a m s
  | cpx m => exact compare_frame rfl rfl rfl State.x m s
  | cpy m => exact compare_frame rfl rfl rfl State.y m s
  | inc m => exact stepOperand_frame m (by rintro rfl; rfl) rfl rfl (· + 1) s
  | dec m => exact stepOperand_frame m (by rintro rfl; rfl) rfl rfl (· - 1) s
  | and m | ora m | eor m => exact logicOp_frame rfl rfl rfl _ m s
  | bit m => exact execBit_frame m s
  | asl m | lsr m | rol m | ror m => exact shiftOp_frame m (by rintro rfl; rfl) rfl rfl rfl _ _ s
  | tsb m | trb m => exact testModify_frame rfl _ m s
  | rmb0 | rmb1 | rmb2 | rmb3 | rmb4 | rmb5 | rmb6 | rmb7 | smb0 | smb1 | smb2 | smb3 | smb4 | smb5 | smb6 | smb7 =>
    exact (Frame.modifyOperand .zp _ s).finish
  | bcc | bcs | beq | bne | bmi | bpl | bvc | bvs | bra => exact branchIf_frame _ s
  | bbr0 | bbr1 | bbr2 | bbr3 | bbr4 | bbr5 | bbr6 | bbr7 | bbs0 | bbs1 | bbs2 | bbs3 | bbs4 | bbs5 | bbs6 | bbs7 =>
    exact branchOnBit_frame _ _ s
  | jmp m => exact execJmp_frame m s
  | jsr => exact execJsr_frame s
  | rts => exact execRts_frame s
  | rti => exact execRti_frame s
  | brk => exact execBrk_frame s
  | pha | php | phx | phy => exact pushByte_frame rfl _ s
  | pla => exact pullRegister_frame (Frame.setA rfl) rfl rfl rfl s
  | plp => exact (Frame.pullByte (Frame.setStatusBits ⟨rfl, rfl, rfl, rfl, rfl, rfl⟩) rfl s).finish
  | plx => exact pullRegister_frame (Frame.setX rfl) rfl rfl rfl s
  | ply => exact pullRegister_frame (Frame.setY rfl) rfl rfl rfl s
  | clc | sec => exact ⟨_, rfl, { Frame.refl s with flagC := of_written rfl }⟩
  | cli | sei => exact ⟨_, rfl, { Frame.refl s with flagI := of_written rfl }⟩
  | cld | sed => exact ⟨_, rfl, { Frame.refl s with flagD := of_written rfl }⟩
  | clv => exact ⟨_, rfl, { Frame.refl s with flagV := of_written rfl }⟩
  | nop f => exact execNop_frame f s
  | illegal op => exact ⟨_, rfl, { Frame.refl s with mark := of_written rfl }⟩

/-- The frame of an instruction that answers: `endInstr` writes T alone. -/
theorem Frame.of_exec {i : Instr} {s t : State} (h : exec i s = .next t) : Frame i s t := by
  obtain ⟨u, hu, rfl⟩ := (exec_frame i s).of_next h
  exact hu.trans (Frame.of_eq rfl rfl rfl rfl rfl rfl)

/-- Settles O20: the flags of the frame. -/
theorem onlyWritersChangeAFlag : Obligations.OnlyWritersChangeAFlag := by
  intro i s t h
  have f := Frame.of_exec h
  exact ⟨f.flagN, f.flagV, f.flagD, f.flagI, f.flagZ, f.flagC⟩

/-- Settles O21: the registers of the frame. -/
theorem onlyWritersChangeARegister : Obligations.OnlyWritersChangeARegister := by
  intro i s t h
  have f := Frame.of_exec h
  exact ⟨f.a, f.x, f.y, f.sp⟩

/-! ## The illegal mark (R55, R385) -/

/-- An instruction leaves the mark set if it was set before or the instruction is the stub. -/
theorem exec_illegalSeen {i : Instr} {s t : State} (h : exec i s = .next t) :
    t.illegalSeen = true ↔ s.illegalSeen = true ∨ i.isIllegal = true := by
  obtain hi | ⟨op, rfl⟩ := isIllegal_eq_false_or i
  · simp [(Frame.of_exec h).mark hi, hi]
  · cases h
    exact iff_of_true rfl (.inr rfl)

/-- A boundary at which no interrupt is pending is one that runs an instruction (R140). -/
theorem runsInstruction_iff (s : State) : RunsInstruction s ↔ s.t = 0 ∧ pendingInterrupt s = none := by
  unfold RunsInstruction pendingInterrupt
  cases s.pendingNMI <;> cases s.pendingIRQ <;> cases s.flags.i <;> simp

@[simp] theorem fetchOpcode_illegalSeen (s : State) : (fetchOpcode s).illegalSeen = s.illegalSeen := rfl

/-- Settles O17: an interrupt sequence leaves the mark alone; the opcode fetch too, and then the instruction decides. -/
theorem onlyTheStubSetsTheIllegalMark : Obligations.OnlyTheStubSetsTheIllegalMark := by
  intro s t h
  rw [runsInstruction_iff]
  obtain ⟨ht, ⟨k, hk, rfl⟩ | ⟨hnone, hrun⟩⟩ := step_cases h
  · simp [hk]
  · simp [exec_illegalSeen hrun, ht, hnone]

end Sys2Proof.Machine
end

section
/-! PC after an instruction that is no control transfer (R35): each operand is as many bytes long as its format says, and no other
operation of these instructions moves PC. -/

namespace Sys2Proof.Machine

/-- `u` is past `k` more bytes of the instruction than `s`. -/
def PastBytes (k : Nat) (s u : State) : Prop :=
  u.pc = s.pc + BitVec.ofNat 16 k

theorem PastBytes.of_pc_eq {s u : State} (h : u.pc = s.pc) : PastBytes 0 s u :=
  h.trans (BitVec.add_zero s.pc).symm

/-- Two bytes fetched one after the other are two bytes past. -/
theorem add_one_add_one (w : Word) : w + 1 + 1 = w + BitVec.ofNat 16 2 := BitVec.add_assoc w 1 1

@[simp] theorem indexBase_pc (always : Bool) (index : Byte) (s : State) : (indexBase always index s).pc = s.pc := by
  unfold indexBase
  split <;> rfl

/-- Forming an effective address fetches the operand bytes of the mode's format (R149 to R169). -/
theorem address_pastBytes (always : Bool) (m : AddrMode) (s : State) :
    PastBytes m.format.operandBytes s (address always m s) := by
  cases m with
  | zp | zpx | zpy | izx | izp => rfl
  | abs => exact add_one_add_one s.pc
  | abx | aby => exact (indexBase_pc _ _ _).trans (add_one_add_one s.pc)
  | izy => exact indexBase_pc _ _ _

theorem loadOperand_pastBytes (m : ReadMode) (s : State) : PastBytes m.format.operandBytes s (loadOperand m s) := by
  cases m with
  | imm => rfl
  | mem m => exact address_pastBytes false m s

theorem storeOperand_pastBytes (m : AddrMode) (v : Byte) (s : State) :
    PastBytes m.format.operandBytes s (storeOperand m v s) :=
  address_pastBytes true m s

theorem modifyOperand_pastBytes (m : AddrMode) (f : Byte → Byte) (s : State) :
    PastBytes m.format.operandBytes s (modifyOperand m f s) :=
  address_pastBytes true m s

/-! ## The shapes of instruction that branch on their operand form -/

theorem stepOperand_pastBytes (f : Byte → Byte) (m : RmwMode) (s : State) :
    EndsIn (PastBytes m.format.operandBytes) s (stepOperand f m s) := by
  cases m with
  | acc => exact ⟨_, rfl, .of_pc_eq rfl⟩
  | mem m => exact ⟨_, rfl, modifyOperand_pastBytes m f s⟩

theorem shiftOp_pastBytes (f : Byte → Byte) (out : Nat) (m : RmwMode) (s : State) :
    EndsIn (PastBytes m.format.operandBytes) s (shiftOp f out m s) := by
  cases m with
  | acc => exact ⟨_, rfl, .of_pc_eq rfl⟩
  | mem m => exact ⟨_, rfl, modifyOperand_pastBytes m f s⟩

@[simp] theorem bitFlags_pc (m : ReadMode) (v : Byte) (s : State) : (bitFlags m v s).pc = s.pc := by
  cases m <;> rfl

theorem execNop_pastBytes (f : NopForm) (s : State) :
    EndsIn (PastBytes (Instr.nop f).format.operandBytes) s (execNop f s) := by
  cases f with
  | imp | imp1 _ => exact ⟨_, rfl, .of_pc_eq rfl⟩
  | imm _ | zp | zpx _ | abs _ => exact ⟨_, rfl, loadOperand_pastBytes _ s⟩
  | abs8 => exact ⟨nopEight s, rfl, add_one_add_one s.pc⟩

/-! ## Every instruction of flow class none -/

/-- An instruction that is neither a control transfer nor the stub ends past the operand bytes of its format. -/
theorem exec_pastBytes {i : Instr} (hflow : i.flow = .none) (hi : i.isIllegal = false) (s : State) :
    EndsIn (PastBytes i.format.operandBytes) s (exec i s) := by
  cases i with
  | lda m | ldx m | ldy m | adc m | sbc m | cmp m | cpx m | cpy m | and m | ora m | eor m =>
    exact ⟨_, rfl, loadOperand_pastBytes m s⟩
  | bit m => exact ⟨_, rfl, (bitFlags_pc m _ _).trans (loadOperand_pastBytes m s)⟩
  | sta m | stx m | sty m | stz m => exact ⟨_, rfl, storeOperand_pastBytes m _ s⟩
  | inc m => exact stepOperand_pastBytes (· + 1) m s
  | dec m => exact stepOperand_pastBytes (· - 1) m s
  | asl m | lsr m | rol m | ror m => exact shiftOp_pastBytes _ _ m s
  | tsb m => exact ⟨_, rfl, modifyOperand_pastBytes m (· ||| s.a) s⟩
  | trb m => exact ⟨_, rfl, modifyOperand_pastBytes m (· &&& (s.a ^^^ 0xFF)) s⟩
  | rmb0 | rmb1 | rmb2 | rmb3 | rmb4 | rmb5 | rmb6 | rmb7 | smb0 | smb1 | smb2 | smb3 | smb4 | smb5 | smb6 | smb7 =>
    exact ⟨_, rfl, modifyOperand_pastBytes .zp _ s⟩
  | tax | tay | txa | tya | tsx | txs | inx | iny | dex | dey => exact ⟨_, rfl, .of_pc_eq rfl⟩
  | pha | php | phx | phy | pla | plp | plx | ply => exact ⟨_, rfl, .of_pc_eq rfl⟩
  | clc | sec | cli | sei | cld | sed | clv => exact ⟨_, rfl, .of_pc_eq rfl⟩
  | nop f => exact execNop_pastBytes f s
  | illegal op => cases hi
  | _ => cases hflow

/-- The length of an instruction but the stub counts its opcode and the operand bytes of its format (R101). -/
theorem byteLength_of_not_isIllegal {i : Instr} (hi : i.isIllegal = false) (c : Config) :
    i.byteLength c = 1 + i.format.operandBytes := by
  cases i with
  | illegal op => cases hi
  | _ => rfl

/-- Settles O23: past the operand bytes of the format, and for the stub past those of its parameter. -/
theorem sequentialInstructionsAdvancePC : Obligations.SequentialInstructionsAdvancePC := by
  intro i s t h hflow
  obtain hi | ⟨op, rfl⟩ := isIllegal_eq_false_or i
  · obtain ⟨u, hu, rfl⟩ := (exec_pastBytes hflow hi s).of_next h
    rw [byteLength_of_not_isIllegal hi, Nat.add_sub_cancel_left]
    exact hu
  · cases h
    rw [Instr.byteLength, Nat.add_sub_cancel_left]
    rfl

end Sys2Proof.Machine
end

section
/-! The decimal flag (R43, R251): every operation but the arithmetic cores and the pushes of the status byte does the same
whatever D holds, so an instruction that uses none of those ends in states that differ at most in D. -/

namespace Sys2Proof.Machine

open Sys2Proof.Certificates

/-- The operation does the same whatever D holds, and leaves D alone. -/
def CommutesWithD (f : State → State) : Prop :=
  ∀ b s, f (withD b s) = withD b (f s)

theorem CommutesWithD.comp {f g : State → State} (hg : CommutesWithD g) (hf : CommutesWithD f) :
    CommutesWithD (fun s => g (f s)) :=
  fun b s => (congrArg g (hf b s)).trans (hg b (f s))

/-- Both outcomes are boundaries, after states that differ at most in D. -/
def EndAlikeButD (o o' : Host.Outcome State Fault Refusal) : Prop :=
  ∃ u b, o = finish u ∧ o' = finish (withD b u)

theorem CommutesWithD.finish {f : State → State} (h : CommutesWithD f) (b : Bool) (s : State) :
    EndAlikeButD (finish (f s)) (finish (f (withD b s))) :=
  ⟨f s, b, rfl, congrArg Machine.finish (h b s)⟩

/-- An instruction that writes D whatever it held ends in one state. -/
theorem EndAlikeButD.refl (u : State) : EndAlikeButD (finish u) (finish u) :=
  ⟨u, u.flags.d, rfl, rfl⟩

/-! ## Operations that commute with replacing D -/

/-- Indexing with the dummy read of the unfixed address, and without it (R159, R160). -/
theorem indexBase_pos {always : Bool} {index : Byte} {s : State} (h : (always || carries s.lat.bal index) = true) :
    indexBase always index s = dummyRead (unfixedAddr index s) (setEA (s.ba + zext16 index) s) := if_pos h

theorem indexBase_neg {always : Bool} {index : Byte} {s : State} (h : ¬ (always || carries s.lat.bal index) = true) :
    indexBase always index s = setEA (s.ba + zext16 index) s := if_neg h

theorem indexBase_withD (always : Bool) (index : Byte) : CommutesWithD (indexBase always index) := by
  intro b s
  by_cases h : (always || carries s.lat.bal index) = true
  · rw [indexBase_pos h, indexBase_pos (s := withD b s) h]
    rfl
  · rw [indexBase_neg h, indexBase_neg (s := withD b s) h]
    rfl

theorem address_withD (always : Bool) (m : AddrMode) : CommutesWithD (address always m) := by
  intro b s
  cases m with
  | zp | zpx | zpy | abs | izx | izp => rfl
  | abx => exact indexBase_withD always s.x b (fetchBase s)
  | aby => exact indexBase_withD always s.y b (fetchBase s)
  | izy => exact indexBase_withD always s.y b (readTo setBAH _ (readTo setBAL _ (fetchTo setIAL s)))

theorem loadOperand_withD (m : ReadMode) : CommutesWithD (loadOperand m) := by
  cases m with
  | imm => exact fun _ _ => rfl
  | mem m => exact .comp (g := fun u => readTo setDATA u.lat.ea u) (fun _ _ => rfl) (address_withD false m)

theorem storeOperand_withD (m : AddrMode) (v : Byte) : CommutesWithD (storeOperand m v) :=
  .comp (g := fun u => writeCycle u.lat.ea v u) (fun _ _ => rfl) (address_withD true m)

theorem modifyOperand_withD (m : AddrMode) (f : Byte → Byte) : CommutesWithD (modifyOperand m f) := by
  intro b s
  rw [modifyOperand_eq, modifyOperand_eq, address_withD]
  rfl

/-- A taken branch within the page of the next instruction, and out of it (R172 c3, c4). -/
theorem takeBranch_same_page {s : State} (h : (hiByte s.branchTarget == hiByte s.pc) = true) :
    takeBranch s = setPC s.branchTarget (dummyRead s.pc s) := if_pos h

theorem takeBranch_other_page {s : State} (h : ¬ (hiByte s.branchTarget == hiByte s.pc) = true) :
    takeBranch s =
      setPC s.branchTarget (dummyRead (word (hiByte s.pc) (loByte s.branchTarget)) (dummyRead s.pc s)) := if_neg h

theorem takeBranch_withD : CommutesWithD takeBranch := by
  intro b s
  by_cases h : (hiByte s.branchTarget == hiByte s.pc) = true
  · rw [takeBranch_same_page h, takeBranch_same_page (s := withD b s) h]
    rfl
  · rw [takeBranch_other_page h, takeBranch_other_page (s := withD b s) h]
    rfl

theorem takeBranch_if_withD (cond : Bool) : CommutesWithD (fun s => if cond then takeBranch s else s) := by
  cases cond with
  | true => exact takeBranch_withD
  | false => exact fun _ _ => rfl

/-! What the jumps and the eight-cycle NOP are made of, as rewriting lemmas. -/

@[simp] theorem withD_pc (b : Bool) (s : State) : (withD b s).pc = s.pc := rfl
@[simp] theorem withD_x (b : Bool) (s : State) : (withD b s).x = s.x := rfl
@[simp] theorem withD_lat (b : Bool) (s : State) : (withD b s).lat = s.lat := rfl
@[simp] theorem withD_ad (b : Bool) (s : State) : (withD b s).ad = s.ad := rfl
@[simp] theorem withD_ba (b : Bool) (s : State) : (withD b s).ba = s.ba := rfl
@[simp] theorem withD_ia (b : Bool) (s : State) : (withD b s).ia = s.ia := rfl

@[simp] theorem dummyRead_withD (addr : Word) (b : Bool) (s : State) :
    dummyRead addr (withD b s) = withD b (dummyRead addr s) := rfl
@[simp] theorem setPC_withD (w : Word) (b : Bool) (s : State) : setPC w (withD b s) = withD b (setPC w s) := rfl
@[simp] theorem setEA_withD (w : Word) (b : Bool) (s : State) : setEA w (withD b s) = withD b (setEA w s) := rfl
@[simp] theorem readTo_setADL_withD (addr : Word) (b : Bool) (s : State) :
    readTo setADL addr (withD b s) = withD b (readTo setADL addr s) := rfl
@[simp] theorem readTo_setADH_withD (addr : Word) (b : Bool) (s : State) :
    readTo setADH addr (withD b s) = withD b (readTo setADH addr s) := rfl
@[simp] theorem fetchTo_setADL_withD (b : Bool) (s : State) : fetchTo setADL (withD b s) = withD b (fetchTo setADL s) := rfl
@[simp] theorem fetchTo_setADH_withD (b : Bool) (s : State) : fetchTo setADH (withD b s) = withD b (fetchTo setADH s) := rfl
@[simp] theorem fetchIndirect_withD (b : Bool) (s : State) : fetchIndirect (withD b s) = withD b (fetchIndirect s) := rfl
@[simp] theorem fetchBase_withD (b : Bool) (s : State) : fetchBase (withD b s) = withD b (fetchBase s) := rfl

theorem jumpIndirectBuggy_withD : CommutesWithD jumpIndirectBuggy := fun b s => by simp [jumpIndirectBuggy]

theorem jumpIndirectFixed_withD : CommutesWithD jumpIndirectFixed := fun b s => by simp [jumpIndirectFixed]

theorem jumpIndexed_withD : CommutesWithD jumpIndexed := fun b s => by simp [jumpIndexed]

theorem nopEight_withD : CommutesWithD nopEight := fun b s => by simp [nopEight]

/-- The state in which a pull reads its byte: after both dummy reads, SP incremented (R351 c4). -/
def pullReady (s : State) : State :=
  setSP (s.sp + 1) (dummyRead (stackAddr s.sp) (implied s))

theorem pullByte_eq (put : Byte → State → State) (s : State) :
    pullByte put s = readTo put (stackAddr (s.sp + 1)) (pullReady s) := rfl

theorem pullByte_withD {put : Byte → State → State} (hp : ∀ v, CommutesWithD (put v)) : CommutesWithD (pullByte put) := by
  intro b s
  rw [pullByte_eq, pullByte_eq]
  exact hp _ b (readCycle (stackAddr (s.sp + 1)) (pullReady s))

/-! ## Each shape of instruction -/

theorem afterLoad_withD {g : State → State} (hg : CommutesWithD g) (m : ReadMode) (b : Bool) (s : State) :
    EndAlikeButD (finish (g (loadOperand m s))) (finish (g (loadOperand m (withD b s)))) :=
  (hg.comp (loadOperand_withD m)).finish b s

theorem afterModify_withD {g : State → State} (hg : CommutesWithD g) (m : AddrMode) (f : Byte → Byte) (b : Bool) (s : State) :
    EndAlikeButD (finish (g (modifyOperand m f s))) (finish (g (modifyOperand m f (withD b s)))) :=
  (hg.comp (modifyOperand_withD m f)).finish b s

theorem loadInto_withD {put : Byte → State → State} (hp : ∀ v, CommutesWithD (put v)) (m : ReadMode) (b : Bool) (s : State) :
    EndAlikeButD (loadInto put m s) (loadInto put m (withD b s)) :=
  afterLoad_withD (g := fun u => setNZ u.lat.data (put u.lat.data u)) (fun b u => congrArg (setNZ _) (hp _ b u)) m b s

theorem transfer_withD {put : Byte → State → State} (hp : ∀ v, CommutesWithD (put v)) (v : Byte) (b : Bool) (s : State) :
    EndAlikeButD (transfer put v s) (transfer put v (withD b s)) :=
  CommutesWithD.finish (f := fun s => setNZ v (put v (implied s))) (fun b s => congrArg (setNZ v) (hp v b (implied s))) b s

theorem stepOperand_withD (f : Byte → Byte) (m : RmwMode) (b : Bool) (s : State) :
    EndAlikeButD (stepOperand f m s) (stepOperand f m (withD b s)) := by
  cases m with
  | acc => exact transfer_withD (put := setA) (fun _ _ _ => rfl) (f s.a) b s
  | mem m => exact afterModify_withD (g := fun u => setNZ (f u.lat.data) u) (fun _ _ => rfl) m f b s

theorem shiftOp_withD (f : Byte → Byte) (out : Nat) (m : RmwMode) (b : Bool) (s : State) :
    EndAlikeButD (shiftOp f out m s) (shiftOp f out m (withD b s)) := by
  cases m with
  | acc =>
    exact CommutesWithD.finish (f := fun s => setNZC (f s.a) (s.a.getLsbD out) (setA (f s.a) (implied s)))
      (fun _ _ => rfl) b s
  | mem m =>
    exact afterModify_withD (g := fun u => setNZC (f u.lat.data) (u.lat.data.getLsbD out) u) (fun _ _ => rfl) m f b s

theorem compare_withD {r : State → Byte} (hr : ∀ b s, r (withD b s) = r s) (m : ReadMode) (b : Bool) (s : State) :
    EndAlikeButD (finish (compare (r (loadOperand m s)) (loadOperand m s).lat.data (loadOperand m s)))
      (finish (compare (r (loadOperand m (withD b s))) (loadOperand m (withD b s)).lat.data (loadOperand m (withD b s)))) :=
  afterLoad_withD (g := fun u => compare (r u) u.lat.data u) (fun b u => by dsimp only; rw [hr]; rfl) m b s

theorem logicOp_withD (f : Byte → Byte → Byte) (m : ReadMode) (b : Bool) (s : State) :
    EndAlikeButD (logicOp f m s) (logicOp f m (withD b s)) :=
  afterLoad_withD (g := fun u => setNZ (f u.a u.lat.data) (setA (f u.a u.lat.data) u)) (fun _ _ => rfl) m b s

theorem execBit_withD (m : ReadMode) (b : Bool) (s : State) : EndAlikeButD (execBit m s) (execBit m (withD b s)) :=
  afterLoad_withD (g := fun u => bitFlags m u.lat.data u) (fun b u => by cases m <;> rfl) m b s

theorem testModify_withD (f : Byte → Byte) (m : AddrMode) (b : Bool) (s : State) :
    EndAlikeButD (finish (testBits (modifyOperand m f s).lat.data (modifyOperand m f s)))
      (finish (testBits (modifyOperand m f (withD b s)).lat.data (modifyOperand m f (withD b s)))) :=
  afterModify_withD (g := fun u => testBits u.lat.data u) (fun _ _ => rfl) m f b s

theorem branchIf_withD (cond : Bool) (b : Bool) (s : State) :
    EndAlikeButD (branchIf cond s) (branchIf cond (withD b s)) :=
  ((takeBranch_if_withD cond).comp (f := afterOffset) fun _ _ => rfl).finish b s

theorem branchOnBit_withD (n : Nat) (value : Bool) (b : Bool) (s : State) :
    EndAlikeButD (branchOnBit n value s) (branchOnBit n value (withD b s)) :=
  CommutesWithD.finish
    (f := fun s => if (afterBitOffset s).lat.data.getLsbD n == value then takeBranch (afterBitOffset s) else afterBitOffset s)
    (fun b s => takeBranch_if_withD ((afterBitOffset s).lat.data.getLsbD n == value) b (afterBitOffset s)) b s

theorem pushByte_withD (v : Byte) (b : Bool) (s : State) : EndAlikeButD (pushByte v s) (pushByte v (withD b s)) :=
  CommutesWithD.finish (f := fun s => push v (implied s)) (fun _ _ => rfl) b s

theorem pullRegister_withD {put : Byte → State → State} (hp : ∀ v, CommutesWithD (put v)) (b : Bool) (s : State) :
    EndAlikeButD (pullRegister put s) (pullRegister put (withD b s)) :=
  (pullByte_withD fun v b u => congrArg (setNZ v) (hp v b u)).finish b s

theorem execJmp_withD (m : JmpMode) (b : Bool) (s : State) : EndAlikeButD (execJmp m s) (execJmp m (withD b s)) := by
  cases m with
  | abs => exact CommutesWithD.finish (f := jumpAbs) (fun _ _ => rfl) b s
  | ind =>
    by_cases fixed : s.cfg.jmpIndFixed = true
    · rw [execJmp_ind_fixed fixed, execJmp_ind_fixed (s := withD b s) fixed]
      exact jumpIndirectFixed_withD.finish b s
    · rw [execJmp_ind_buggy fixed, execJmp_ind_buggy (s := withD b s) fixed]
      exact jumpIndirectBuggy_withD.finish b s
  | iax => exact jumpIndexed_withD.finish b s

theorem execNop_withD (f : NopForm) (b : Bool) (s : State) : EndAlikeButD (execNop f s) (execNop f (withD b s)) := by
  cases f with
  | imp => exact CommutesWithD.finish (f := implied) (fun _ _ => rfl) b s
  | imp1 _ => exact CommutesWithD.finish (f := id) (fun _ _ => rfl) b s
  | imm _ | zp | zpx _ | abs _ => exact (loadOperand_withD _).finish b s
  | abs8 => exact nopEight_withD.finish b s

/-! ## Every instruction but ADC, SBC, PHP and BRK -/

/-- Every instruction that reads no D ends in the same state up to D, whatever D held. -/
theorem exec_withD {i : Instr} (hadc : ∀ m, i ≠ .adc m) (hsbc : ∀ m, i ≠ .sbc m) (hphp : i ≠ .php) (hbrk : i ≠ .brk) (b : Bool)
    (s : State) : EndAlikeButD (exec i s) (exec i (withD b s)) := by
  cases i with
  | adc m => exact absurd rfl (hadc m)
  | sbc m => exact absurd rfl (hsbc m)
  | php => exact absurd rfl hphp
  | brk => exact absurd rfl hbrk
  | lda m => exact loadInto_withD (put := setA) (fun _ _ _ => rfl) m b s
  | ldx m => exact loadInto_withD (put := setX) (fun _ _ _ => rfl) m b s
  | ldy m => exact loadInto_withD (put := setY) (fun _ _ _ => rfl) m b s
  | sta m | stx m | sty m | stz m => exact (storeOperand_withD m _).finish b s
  | tax | tsx | inx | dex => exact transfer_withD (put := setX) (fun _ _ _ => rfl) _ b s
  | tay | iny | dey => exact transfer_withD (put := setY) (fun _ _ _ => rfl) _ b s
  | txa | tya => exact transfer_withD (put := setA) (fun _ _ _ => rfl) _ b s
  | txs => exact CommutesWithD.finish (f := fun s => setSP s.x (implied s)) (fun _ _ => rfl) b s
  | cmp m => exact compare_withD (r := State.a) (fun _ _ => rfl) m b s
  | cpx m => exact compare_withD (r := State.x) (fun _ _ => rfl) m b s
  | cpy m => exact compare_withD (r := State.y) (fun _ _ => rfl) m b s
  | inc m => exact stepOperand_withD (· + 1) m b s
  | dec m => exact stepOperand_withD (· - 1) m b s
  | and m | ora m | eor m => exact logicOp_withD _ m b s
  | bit m => exact execBit_withD m b s
  | asl m | lsr m | rol m | ror m => exact shiftOp_withD _ _ m b s
  | tsb m => exact testModify_withD (· ||| s.a) m b s
  | trb m => exact testModify_withD (· &&& (s.a ^^^ 0xFF)) m b s
  | rmb0 | rmb1 | rmb2 | rmb3 | rmb4 | rmb5 | rmb6 | rmb7 | smb0 | smb1 | smb2 | smb3 | smb4 | smb5 | smb6 | smb7 =>
    exact (modifyOperand_withD .zp _).finish b s
  | bcc | bcs | beq | bne | bmi | bpl | bvc | bvs | bra => exact branchIf_withD _ b s
  | bbr0 | bbr1 | bbr2 | bbr3 | bbr4 | bbr5 | bbr6 | bbr7 | bbs0 | bbs1 | bbs2 | bbs3 | bbs4 | bbs5 | bbs6 | bbs7 =>
    exact branchOnBit_withD _ _ b s
  | jmp m => exact execJmp_withD m b s
  | jsr => exact ⟨_, b, rfl, rfl⟩
  | rts => exact ⟨_, b, rfl, rfl⟩
  | rti | plp => exact EndAlikeButD.refl _
  | pha | phx | phy => exact pushByte_withD _ b s
  | pla => exact pullRegister_withD (put := setA) (fun _ _ _ => rfl) b s
  | plx => exact pullRegister_withD (put := setX) (fun _ _ _ => rfl) b s
  | ply => exact pullRegister_withD (put := setY) (fun _ _ _ => rfl) b s
  | clc | sec | cli | sei | clv => exact ⟨_, b, rfl, rfl⟩
  | cld | sed => exact EndAlikeButD.refl _
  | nop f => exact execNop_withD f b s
  | illegal op => exact ⟨_, b, rfl, rfl⟩

/-- Settles O25: of two states that differ at most in D, either is the other with its D put back. -/
theorem onlyAdcSbcPhpAndBrkReadTheDecimalFlag : Obligations.OnlyAdcSbcPhpAndBrkReadTheDecimalFlag := by
  intro i s t b hadc hsbc hphp hbrk ht
  obtain ⟨u, d, hu, hu'⟩ := exec_withD hadc hsbc hphp hbrk b s
  cases hu.symm.trans ht
  exact ⟨_, hu', rfl⟩

end Sys2Proof.Machine
end

section
/-! A pull after a push (R34, R352 to R359): the push leaves its byte where the pull's read finds it, and SP comes back. The status
byte holds all six flags. -/

namespace Sys2Proof.Machine

open Sys2Proof.Certificates

/-- The flags are read back from the status byte, whatever its bits 5 and 4 (R39, R40). -/
theorem statusFlags_statusByte (f : Flags) : statusFlags (statusByte f) = f := by
  obtain ⟨n, v, d, i, z, c⟩ := f
  revert n v d i z c
  decide

theorem statusFlags_pushedStatus (b : Bool) (f : Flags) : statusFlags (pushedStatus b f) = f := by
  obtain ⟨n, v, d, i, z, c⟩ := f
  revert b n v d i z c
  decide

/-- In RAM the pushed byte is at the stack address that SP named (R15, R34). -/
theorem push_byteAt {s : State} (hwf : Memory.wf s.mem = true) (hram : s.isRam (stackAddr s.sp) = true) (v : Byte) :
    byteAt (push v s) (stackAddr s.sp) = v :=
  (writeCycle_get hwf (stackAddr s.sp) v _).trans (if_pos ⟨rfl, hram⟩)

/-- A pull from RAM gives its destination the byte at the incremented SP (R351). -/
theorem pullByte_of_ram {h : State} (hram : h.isRam (stackAddr (h.sp + 1)) = true) (put : Byte → State → State) :
    pullByte put h =
      put (byteAt h (stackAddr (h.sp + 1))) (readCycle (stackAddr (h.sp + 1)) (pullReady h)) :=
  congrArg (put · _) (if_pos hram)

/-- A push completes, and from any state with its SP, its configuration and the pushed byte as it left them, a pull completes with
that byte in its destination and SP as before the push. -/
theorem completes_pull_of_push {s : State} (hwf : Memory.wf s.mem = true) (hstack : StackIsRam s) {i j : Instr} {v : Byte}
    {put : Byte → State → State} {Q : State → Prop} (hpush : exec i s = pushByte v s)
    (hpull : ∀ h, exec j h = finish (pullByte put h)) (hQ : ∀ w : State, w.sp = s.sp → Q (endInstr (put v w))) :
    Completes i s (fun t => ∀ h : State, h.sp = t.sp → SameBytes [stackAddr s.sp] t h → h.cfg = t.cfg → Completes j h Q) := by
  refine ⟨endInstr (push v (implied s)), hpush, fun h hsp hbytes hcfg => ⟨_, hpull h, ?_⟩⟩
  have hback : h.sp + 1 = s.sp := by
    rw [hsp]
    exact BitVec.sub_add_cancel s.sp 1
  have hbyte : byteAt h (stackAddr s.sp) = v :=
    (hbytes _ (List.mem_singleton_self _)).trans (push_byteAt (s := implied s) hwf (hstack s.sp) v)
  have hram : h.isRam (stackAddr (h.sp + 1)) = true := by
    rw [hback, State.isRam, hcfg]
    exact hstack s.sp
  rw [pullByte_of_ram hram, hback, hbyte]
  exact hQ _ hback

/-- Settles O13: each pair is a push and a pull of one byte; PLP reads the six flags back from the status byte. -/
theorem pullGivesBackWhatWasPushed : Obligations.PullGivesBackWhatWasPushed := by
  intro s hwf hstack
  refine ⟨?pha, ?phx, ?phy, ?php⟩
  case pha =>
    exact completes_pull_of_push hwf hstack (put := fun v u => setNZ v (setA v u)) rfl (fun _ => rfl)
      fun _ hsp => ⟨rfl, hsp⟩
  case phx =>
    exact completes_pull_of_push hwf hstack (put := fun v u => setNZ v (setX v u)) rfl (fun _ => rfl)
      fun _ hsp => ⟨rfl, hsp⟩
  case phy =>
    exact completes_pull_of_push hwf hstack (put := fun v u => setNZ v (setY v u)) rfl (fun _ => rfl)
      fun _ hsp => ⟨rfl, hsp⟩
  case php =>
    exact completes_pull_of_push hwf hstack (put := setStatusBits) rfl (fun _ => rfl)
      fun _ hsp => ⟨statusFlags_pushedStatus true s.flags, hsp⟩

end Sys2Proof.Machine
end

section
/-! Snapshots (R57, R58, R462). -/

namespace Sys2Proof.Machine

/-- The snapshot taken of a state (R57). -/
def snapshotOf {V : Type} (vstack : V) (s : State) : Snapshot V where
  pc := s.pc
  sp := s.sp
  a := s.a
  x := s.x
  y := s.y
  ps := statusByte s.flags
  t := s.t
  cycles := s.cycles
  pendingNMI := s.pendingNMI
  pendingIRQ := s.pendingIRQ
  opcode := s.opcode
  vstack := vstack

/-- The state with everything a snapshot holds put back (R57). -/
def restoredFrom {V : Type} (q : Snapshot V) (s : State) : State :=
  { s with
    pc := q.pc, sp := q.sp, a := q.a, x := q.x, y := q.y, flags := statusFlags q.ps, t := q.t, cycles := q.cycles
    pendingNMI := q.pendingNMI, pendingIRQ := q.pendingIRQ, opcode := q.opcode }

section
variable {V : Type}

theorem getState_of_boundary {s : State} (h : s.t = 0) (vstack : V) : getState vstack s = .next (snapshotOf vstack s) :=
  if_pos h

theorem getState_of_midInstruction {s : State} (h : s.t ≠ 0) (vstack : V) :
    getState vstack s = .refused .midInstruction :=
  if_neg h

theorem setState_of_boundary {q : Snapshot V} {s : State} (hs : s.t = 0) (hq : q.t = 0) :
    setState q s = .next (restoredFrom q s) :=
  if_pos ⟨hs, hq⟩

theorem setState_of_midInstruction {q : Snapshot V} {s : State} (h : q.t ≠ 0 ∨ s.t ≠ 0) :
    setState q s = .refused .midInstruction :=
  if_neg fun both => h.elim (· both.2) (· both.1)

/-- The status byte gives back the flags of the state the snapshot was taken of (R39, R40). -/
theorem restoredFrom_flags (vstack : V) (s u : State) : (restoredFrom (snapshotOf vstack s) u).flags = s.flags :=
  statusFlags_statusByte s.flags

/-- A snapshot of a restored state is the snapshot restored. -/
theorem snapshotOf_restoredFrom (vstack : V) (s u : State) :
    snapshotOf vstack (restoredFrom (snapshotOf vstack s) u) = snapshotOf vstack s := by
  rw [snapshotOf, restoredFrom_flags]
  rfl

end

/-- Settles O59: the flags come back through the status byte, every other field as it stands in the snapshot. -/
theorem snapshotRoundTrip : Obligations.SnapshotRoundTrip := by
  intro V vstack s u
  refine ⟨fun hs hu => ?_, fun hs => getState_of_midInstruction hs vstack, fun q => setState_of_midInstruction⟩
  have hrestored : (restoredFrom (snapshotOf vstack s) u).t = 0 := hs
  refine ⟨_, _, getState_of_boundary hs vstack, setState_of_boundary hu hs, ?_, rfl, rfl, rfl, rfl, rfl, rfl,
    restoredFrom_flags vstack s u, rfl, rfl, rfl, rfl, rfl⟩
  rw [getState_of_boundary hrestored, snapshotOf_restoredFrom]

end Sys2Proof.Machine
end

section
/-! Opcodes and instructions (R100, R101, R110 to R113): every opcode selects an instruction of its variant, which encodes back to
it; every instruction of a variant is the entry of its own opcode. The operand forms and the variants are enumerated once, and a
mnemonic's table is then a check over those lists. -/

namespace Sys2Proof

/-! ## The entry of an opcode -/

@[simp] theorem decodeOpcode_cmos (op : Byte) : decodeOpcode .cmos65c02 op = cmosEntry op := rfl

theorem decodeOpcode_nmos_of_illegal {op : Byte} (h : nmosIllegal op = true) : decodeOpcode .nmos6502 op = .illegal op :=
  if_pos h

theorem decodeOpcode_nmos_of_legal {op : Byte} (h : ¬ nmosIllegal op = true) :
    decodeOpcode .nmos6502 op = cmosEntry op :=
  if_neg h

/-- The map's entry is an instruction of the 65C02 (R113). -/
theorem cmosEntry_wf_cmos : ∀ op : Byte, (cmosEntry op).wf .cmos65c02 = true := by decide

/-- Outside the list of R111 the map's entry is an instruction of the NMOS part too. -/
theorem cmosEntry_wf_nmos : ∀ op : Byte, ¬ nmosIllegal op = true → (cmosEntry op).wf .nmos6502 = true := by decide

/-- The "Encodings" lines of the rules agree with the map (R115). -/
theorem encodeOpcode_cmosEntry : ∀ op : Byte, encodeOpcode (cmosEntry op) = some op := by decide

/-- The opcodes of R111, on either side of the stub. -/
theorem isIllegal_decodeOpcode_nmos (op : Byte) : (decodeOpcode .nmos6502 op).isIllegal = nmosIllegal op := by
  by_cases h : nmosIllegal op = true
  · rw [decodeOpcode_nmos_of_illegal h, h]
    rfl
  · rw [decodeOpcode_nmos_of_legal h, opcodeMap_total, Bool.eq_false_of_not_eq_true h]

/-- Settles O2: an entry of the map on the 65C02; on the NMOS part the stub, which carries its opcode, or an entry of the map. -/
theorem everyOpcodeHasOneMeaning : Obligations.EveryOpcodeHasOneMeaning := by
  intro v op
  cases v with
  | cmos65c02 => exact ⟨cmosEntry_wf_cmos op, encodeOpcode_cmosEntry op⟩
  | nmos6502 =>
    by_cases h : nmosIllegal op = true
    · rw [decodeOpcode_nmos_of_illegal h]
      exact ⟨h, rfl⟩
    · rw [decodeOpcode_nmos_of_legal h]
      exact ⟨cmosEntry_wf_nmos op h, encodeOpcode_cmosEntry op⟩

/-- Settles O3, by looking the twelve opcodes up. -/
theorem sampleWordsDecode : Obligations.SampleWordsDecode := by
  unfold Obligations.SampleWordsDecode
  decide

/-- The list of R111 has 105 opcodes, counted in the lower and the upper half of the map. -/
theorem nmosIllegal_count : (List.range 256).countP (fun n => nmosIllegal (BitVec.ofNat 8 n)) = 105 := by
  have halves : List.range (128 + 128) = List.range 128 ++ (List.range 128).map (128 + ·) := List.range_add
  rw [halves, List.countP_append, List.countP_map]
  decide

/-- Settles O4: on the NMOS part the stub stands exactly at the opcodes of R111, and the map, which has no stub, elsewhere. -/
theorem illegalOpcodesOfTheVariants : Obligations.IllegalOpcodesOfTheVariants := by
  refine ⟨?count, isIllegal_decodeOpcode_nmos, opcodeMap_total, fun op => ?same⟩
  case count =>
    simp only [isIllegal_decodeOpcode_nmos]
    exact nmosIllegal_count
  case same =>
    by_cases h : nmosIllegal op = true
    · exact .inl ((isIllegal_decodeOpcode_nmos op).trans h)
    · exact .inr (decodeOpcode_nmos_of_legal h)

/-! ## The opcode of an instruction -/

/-- The variants, listed. -/
def Variant.all : List Variant := [.nmos6502, .cmos65c02]

/-- The memory modes, listed. -/
def AddrMode.all : List AddrMode := [.zp, .zpx, .zpy, .abs, .abx, .aby, .izx, .izy, .izp]

/-- The read operands, listed. -/
def ReadMode.all : List ReadMode := .imm :: AddrMode.all.map .mem

/-- The read-modify-write operands, listed. -/
def RmwMode.all : List RmwMode := .acc :: AddrMode.all.map .mem

theorem Variant.mem_all (v : Variant) : v ∈ Variant.all := by
  cases v <;> decide

theorem AddrMode.mem_all (m : AddrMode) : m ∈ AddrMode.all := by
  cases m <;> decide

theorem ReadMode.mem_all (m : ReadMode) : m ∈ ReadMode.all := by
  cases m with
  | imm => exact List.mem_cons_self
  | mem m => exact List.mem_cons_of_mem _ (List.mem_map_of_mem m.mem_all)

theorem RmwMode.mem_all (m : RmwMode) : m ∈ RmwMode.all := by
  cases m with
  | acc => exact List.mem_cons_self
  | mem m => exact List.mem_cons_of_mem _ (List.mem_map_of_mem m.mem_all)

/-- If the variant has the instruction, it is the entry of its own opcode. -/
abbrev RoundTrips (v : Variant) (i : Instr) : Prop :=
  i.wf v = true → (encodeOpcode i).map (decodeOpcode v) = some i

/-! A table is checked over the variants and the forms of its operand. -/

theorem RoundTrips.of_variants {i : Instr} (h : ∀ v ∈ Variant.all, RoundTrips v i) (v : Variant) : RoundTrips v i :=
  h v v.mem_all

theorem RoundTrips.of_addrModes {i : AddrMode → Instr} (h : ∀ v ∈ Variant.all, ∀ m ∈ AddrMode.all, RoundTrips v (i m))
    (v : Variant) (m : AddrMode) : RoundTrips v (i m) :=
  h v v.mem_all m m.mem_all

theorem RoundTrips.of_readModes {i : ReadMode → Instr} (h : ∀ v ∈ Variant.all, ∀ m ∈ ReadMode.all, RoundTrips v (i m))
    (v : Variant) (m : ReadMode) : RoundTrips v (i m) :=
  h v v.mem_all m m.mem_all

theorem RoundTrips.of_rmwModes {i : RmwMode → Instr} (h : ∀ v ∈ Variant.all, ∀ m ∈ RmwMode.all, RoundTrips v (i m))
    (v : Variant) (m : RmwMode) : RoundTrips v (i m) :=
  h v v.mem_all m m.mem_all

theorem RoundTrips.of_nopOpcodes {f : Byte → NopForm} (h : ∀ v ∈ Variant.all, ∀ op, RoundTrips v (.nop (f op)))
    (v : Variant) (op : Byte) : RoundTrips v (.nop (f op)) :=
  h v v.mem_all op

theorem jmp_roundTrips (v : Variant) (m : JmpMode) : RoundTrips v (.jmp m) := by
  cases m with
  | abs | ind | iax => exact RoundTrips.of_variants (by decide) v

/-- A NOP form that stands at several opcodes carries the one it stands at. -/
theorem nop_roundTrips (v : Variant) (f : NopForm) : RoundTrips v (.nop f) := by
  cases f with
  | imp | zp | abs8 => exact RoundTrips.of_variants (by decide) v
  | imp1 op | imm op | zpx op | abs op => exact RoundTrips.of_nopOpcodes (by decide) v op

/-- The stub is an instruction of the NMOS part alone, at the opcodes of R111. -/
theorem illegal_roundTrips (v : Variant) (op : Byte) : RoundTrips v (.illegal op) := by
  intro hwf
  cases v with
  | nmos6502 => exact congrArg some (decodeOpcode_nmos_of_illegal hwf)
  | cmos65c02 => cases hwf

/-- Every instruction of a variant is the entry of its own opcode. -/
theorem instr_roundTrips (v : Variant) (i : Instr) : RoundTrips v i := by
  cases i with
  | lda m | ldx m | ldy m | adc m | sbc m | cmp m | cpx m | cpy m | and m | ora m | eor m | bit m =>
    exact RoundTrips.of_readModes (by decide) v m
  | sta m | stx m | sty m | stz m | tsb m | trb m => exact RoundTrips.of_addrModes (by decide) v m
  | inc m | dec m | asl m | lsr m | rol m | ror m => exact RoundTrips.of_rmwModes (by decide) v m
  | jmp m => exact jmp_roundTrips v m
  | nop f => exact nop_roundTrips v f
  | illegal op => exact illegal_roundTrips v op
  | _ => exact RoundTrips.of_variants (by decide) v

/-! ## Bytes -/

theorem decode_cons_of_takeOperand {v : Variant} {op : Byte} {tail rest : List Byte} {o : Operand}
    (h : takeOperand (decodeOpcode v op).format.operandBytes tail = some (o, rest)) :
    decode v (op :: tail) = .ok { instr := decodeOpcode v op, operand := o, rest := rest } := by
  rw [decode, h]

/-- The bytes of an operand that fits are taken back off the list, whatever follows them. -/
theorem Operand.take_of_fits {o : Operand} {i : Instr} (h : o.fits i = true) (rest : List Byte) :
    takeOperand i.format.operandBytes (o.bytes ++ rest) = some (o, rest) := by
  rw [← beq_iff_eq.mp h]
  exact takeOperand_bytes o rest

/-- Settles O1: the instruction is the entry of its opcode, and its format takes its operand off the bytes that follow. -/
theorem decodeOfEncodeIsIdentity : Obligations.DecodeOfEncodeIsIdentity := by
  intro v i o rest hwf hfits
  obtain ⟨op, hop, rfl⟩ := Option.map_eq_some_iff.mp (instr_roundTrips v i hwf)
  exact ⟨op :: o.bytes, by rw [encode, hop, Option.map_some], decode_cons_of_takeOperand (o.take_of_fits hfits rest)⟩

end Sys2Proof
end

section
/-! The bus reads of the operand cycles (R149 to R171): `AfterReads reads s u` says that the reads of these addresses, in
consecutive cycles, are all that happened between `s` and `u`, PC, T and the latches apart. What the bus answers next then depends
on `s` and the addresses alone, and so do the effective address and the operand byte of each mode. -/

namespace Sys2Proof.Machine

open Sys2Proof.Certificates

/-- From `s` to `u` the machine read these addresses, oldest first, and changed nothing else but PC, T and the latches. -/
structure AfterReads (reads : List Word) (s u : State) : Prop where
  phase   : OperandPhase s u
  history : u.history = historyAfter s reads
  cycles  : u.cycles = s.cycles + reads.length

theorem OperandPhase.isRam_eq {s u : State} (h : OperandPhase s u) (addr : Word) : u.isRam addr = s.isRam addr := by
  rw [State.isRam, State.isRam, h.cfg]

/-- An operand phase changes nothing but the history, the counters, PC and the latches. -/
theorem OperandPhase.restore_eq {s u : State} (h : OperandPhase s u) :
    { u with history := s.history, cycles := s.cycles, t := s.t, pc := s.pc, lat := s.lat } = s := by
  rw [h.sp, h.a, h.x, h.y, h.flags, h.opcode, h.nmi, h.irq, h.illegalSeen, h.mem, h.cfg]

/-- What the bus answers after the reads (R71). -/
theorem AfterReads.busAnswer_eq {reads : List Word} {s u : State} (h : AfterReads reads s u) (addr : Word) :
    busAnswer addr u = answerAfter s reads addr := by
  rw [busAnswer, h.phase.isRam_eq, h.phase.mem, h.history, h.cycles]
  rfl

theorem readEvents_append (c : Nat) (as bs : List Word) :
    readEvents c (as ++ bs) = readEvents c as ++ readEvents (c + as.length) bs := by
  induction as generalizing c with
  | nil => rfl
  | cons a as ih =>
    rw [List.cons_append, readEvents, ih, List.length_cons, Nat.add_assoc c, Nat.add_comm 1]
    rfl

/-- One more read is one more event, in the cycle after the others. -/
theorem historyAfter_concat (s : State) (reads : List Word) (addr : Word) :
    historyAfter s (reads ++ [addr]) = .read addr (s.cycles + reads.length) :: historyAfter s reads := by
  simp [historyAfter, readEvents_append, readEvents]

theorem AfterReads.readCycle {reads : List Word} {s u : State} (h : AfterReads reads s u) (addr : Word) :
    AfterReads (reads ++ [addr]) s (readCycle addr u) where
  phase := h.phase.trans (OperandPhase.readCycle addr u)
  history := by rw [readCycle_history, historyAfter_concat, h.history, h.cycles]
  cycles := by rw [readCycle_cycles, h.cycles, List.length_append, List.length_singleton, Nat.add_assoc]

/-- A step that writes only PC or the latches makes no read. -/
theorem AfterReads.of_phase {reads : List Word} {s u v : State} (h : AfterReads reads s u) (p : OperandPhase u v)
    (hh : v.history = u.history) (hc : v.cycles = u.cycles) : AfterReads reads s v :=
  ⟨h.phase.trans p, hh.trans h.history, hc.trans h.cycles⟩

/-! ## Indexing a base (R159 to R162, R166 to R168) -/

/-- The condition of the dummy read, as the model computes it and as `dummyAt` states it. -/
theorem always_or_carries_iff (always : Bool) (lo index : Byte) :
    (always || carries lo index) = true ↔ always = true ∨ 256 ≤ lo.toNat + index.toNat := by
  simp [carries]

/-- Indexing reads the unfixed address, or nothing. -/
theorem indexBase_afterReads {reads : List Word} {s u : State} (h : AfterReads reads s u) (always : Bool) (index : Byte) :
    AfterReads (reads ++ dummyAt always u.lat.bah u.lat.bal index) s (indexBase always index u) := by
  have indexed : AfterReads reads s (setEA (u.ba + zext16 index) u) := h.of_phase (OperandPhase.setEA _ u) rfl rfl
  by_cases hd : (always || carries u.lat.bal index) = true
  · rw [indexBase_pos hd, dummyAt, if_pos ((always_or_carries_iff _ _ _).mp hd)]
    exact indexed.readCycle _
  · rw [indexBase_neg hd, dummyAt, if_neg (mt (always_or_carries_iff _ _ _).mpr hd), List.append_nil]
    exact indexed

/-- Indexing leaves the sum in the latch EA and the base in its latches. -/
theorem indexBase_lat (always : Bool) (index : Byte) (s : State) :
    (indexBase always index s).lat = { s.lat with ea := s.ba + zext16 index } := by
  unfold indexBase
  split <;> rfl

@[simp] theorem hiByte_word (hi lo : Byte) : hiByte (word hi lo) = hi := BitVec.extractLsb'_append_eq_left

@[simp] theorem loByte_word (hi lo : Byte) : loByte (word hi lo) = lo := BitVec.extractLsb'_append_eq_right

/-! ## The memory modes -/

/-- The two operand bytes of an absolute mode fetched into the base latches (R156). -/
theorem fetchBase_afterReads (s : State) : AfterReads [s.pc, s.pc + 1] s (fetchBase s) :=
  ⟨(OperandPhase.fetchTo latchDest_setBAL s).trans (OperandPhase.fetchTo latchDest_setBAH _), rfl, rfl⟩

/-- The state in which `(zp),Y` indexes: the pointer's word is in the base latches (R166). -/
def pointerBase (s : State) : State :=
  let s := fetchTo setIAL s
  let s := readTo setBAL (zeroPage s.lat.ial) s
  readTo setBAH (zeroPage (s.lat.ial + 1)) s

theorem pointerBase_afterReads (s : State) :
    AfterReads [s.pc, zeroPage (operand1 s), zeroPage (operand1 s + 1)] s (pointerBase s) :=
  ⟨((OperandPhase.fetchTo latchDest_setIAL s).trans (OperandPhase.readTo latchDest_setBAL _ _)).trans
    (OperandPhase.readTo latchDest_setBAH _ _), rfl, rfl⟩

/-- The base of `(zp),Y` is the word at the pointer. -/
theorem pointerBase_ba (s : State) : (pointerBase s).ba = zpWord s := rfl

/-- A mode makes the reads of its cycle table and nothing else (R149 to R171). -/
theorem address_afterReads (always : Bool) (m : AddrMode) (s : State) :
    AfterReads (modeReads always m s) s (address always m s) := by
  cases m with
  | zp | zpx | zpy | abs | izx | izp => exact ⟨OperandPhase.address always _ s, rfl, rfl⟩
  | abx => exact indexBase_afterReads (fetchBase_afterReads s) always s.x
  | aby => exact indexBase_afterReads (fetchBase_afterReads s) always s.y
  | izy =>
    rw [modeReads, ← pointerBase_ba, State.ba, hiByte_word, loByte_word]
    exact indexBase_afterReads (pointerBase_afterReads s) always s.y

/-- The latch EA holds the mode's effective address. -/
theorem address_ea (always : Bool) (m : AddrMode) (s : State) : (address always m s).lat.ea = modeEA m s := by
  cases m with
  | zp | zpx | zpy | abs | izx | izp => rfl
  | abx => exact congrArg Latches.ea (indexBase_lat always s.x (fetchBase s))
  | aby => exact congrArg Latches.ea (indexBase_lat always s.y (fetchBase s))
  | izy => exact congrArg Latches.ea (indexBase_lat always s.y (pointerBase s))

/-- Loading an operand makes the reads of its form. -/
theorem loadOperand_afterReads (m : ReadMode) (s : State) : AfterReads (operandReads m s) s (loadOperand m s) := by
  cases m with
  | imm => exact ⟨OperandPhase.loadOperand .imm s, rfl, rfl⟩
  | mem m =>
    rw [operandReads, ← address_ea false]
    exact ((address_afterReads false m s).readCycle _).of_phase (latchDest_setDATA _ _) rfl rfl

/-- The operand byte is the answer at the effective address, after the reads of the mode (R145). -/
theorem operandByte_mem (m : AddrMode) (s : State) :
    operandByte (.mem m) s = answerAfter s (modeReads false m s) (modeEA m s) := by
  rw [← address_ea false, ← (address_afterReads false m s).busAnswer_eq]
  rfl

/-! ## Where the whole address space is RAM (R72) -/

theorem answerAfter_of_allRam {s : State} (h : AllRam s) (reads : List Word) (addr : Word) :
    answerAfter s reads addr = byteAt s addr :=
  if_pos (h addr)

theorem pointerWord_of_allRam {s : State} (h : AllRam s) (reads : List Word) (p : Byte) :
    pointerWord s reads p = word (byteAt s (zeroPage (p + 1))) (byteAt s (zeroPage p)) := by
  rw [pointerWord, answerAfter_of_allRam h, answerAfter_of_allRam h]

theorem operand1_of_allRam {s : State} (h : AllRam s) : operand1 s = byteAt s s.pc := answerAfter_of_allRam h _ _

theorem operand2_of_allRam {s : State} (h : AllRam s) : operand2 s = byteAt s (s.pc + 1) := answerAfter_of_allRam h _ _

theorem izxWord_of_allRam {s : State} (h : AllRam s) : izxWord s = ramEA .izx s := by
  rw [izxWord, pointerWord_of_allRam h, operand1_of_allRam h]
  rfl

theorem zpWord_of_allRam {s : State} (h : AllRam s) : zpWord s = ramEA .izp s := by
  rw [zpWord, pointerWord_of_allRam h, operand1_of_allRam h]
  rfl

theorem modeEA_of_allRam {s : State} (h : AllRam s) (m : AddrMode) : modeEA m s = ramEA m s := by
  cases m with
  | zp | zpx | zpy => rw [modeEA, operand1_of_allRam h]; rfl
  | abs | abx | aby => rw [modeEA, operand1_of_allRam h, operand2_of_allRam h]; rfl
  | izx => exact izxWord_of_allRam h
  | izy => exact congrArg (· + zext16 s.y) (zpWord_of_allRam h)
  | izp => exact zpWord_of_allRam h

theorem modeReads_of_allRam {s : State} (h : AllRam s) (always : Bool) (m : AddrMode) :
    modeReads always m s = ramReads always m s := by
  cases m with
  | zp | abs => rfl
  | zpx | zpy | izx | izp => rw [modeReads, operand1_of_allRam h]; rfl
  | abx | aby => rw [modeReads, operand1_of_allRam h, operand2_of_allRam h]; rfl
  | izy => rw [modeReads, operand1_of_allRam h, zpWord_of_allRam h, ramEA, hiByte_word, loByte_word]; rfl

/-- Settles O26: the latch EA after the mode's cycles, and the answer of the bus there after the mode's reads. -/
theorem effectiveAddresses : Obligations.EffectiveAddresses := by
  intro always m s
  refine ⟨address_ea always m s, operandByte_mem m s, rfl, fun hram => ⟨modeEA_of_allRam hram m, ?_⟩⟩
  rw [operandByte_mem, answerAfter_of_allRam hram, modeEA_of_allRam hram]

/-- Settles O27: the reads of the mode are all its cycles do. -/
theorem addressingCycles : Obligations.AddressingCycles := by
  intro always m s
  have h := address_afterReads always m s
  exact ⟨h.history, h.cycles, h.phase.restore_eq, fun hram => modeReads_of_allRam hram always m⟩

end Sys2Proof.Machine
end

section
/-! The cycle law (R143, R174): every instruction but the stub takes its base cycles and its penalty; the operand cycles take one
cycle for each read of the mode. -/

namespace Sys2Proof.Machine

open Sys2Proof.Certificates

/-- With the cycle of the opcode fetch, `n` cycles passed from `s` to `u`. -/
def TakesWithFetch (n : Nat) (s u : State) : Prop :=
  u.cycles + 1 = s.cycles + n

/-! ## The operand primitives (R145, R174) -/

theorem dummyAt_length (always : Bool) (hi lo index : Byte) :
    (dummyAt always hi lo index).length = if (always || carries lo index) = true then 1 else 0 := by
  simp only [dummyAt, always_or_carries_iff]
  split <;> rfl

/-- A write or read-modify-write form makes all reads of its table: with the opcode fetch and the write, column W of R174. -/
theorem modeReads_length_always (m : AddrMode) (s : State) : (modeReads true m s).length + 2 = m.writeCycles := by
  cases m with
  | zp | zpx | zpy | abs | izx | izp => rfl
  | abx | aby | izy => rw [modeReads, List.length_append, dummyAt_length]; rfl

/-- Reads that end with the dummy read of a read form: one more on a carry of the base's low byte alone. -/
theorem indexedReads_length {bal lo : Byte} (h : bal = lo) (reads : List Word) (hi index : Byte) :
    (reads ++ dummyAt false hi lo index).length + 2 = reads.length + 2 + if carries bal index then 1 else 0 := by
  rw [List.length_append, dummyAt_length, h, Bool.false_or, Nat.add_right_comm]

theorem indexBase_bal (always : Bool) (index : Byte) (s : State) : (indexBase always index s).lat.bal = s.lat.bal := by
  rw [indexBase_lat]

theorem pointerBase_bal (s : State) : (pointerBase s).lat.bal = loByte (zpWord s) := by
  rw [← pointerBase_ba, State.ba, loByte_word]

/-- A read form makes the dummy read of an indexed mode on a carry alone: with the opcode fetch and the operand's read, column R of
R174 and the index-carry penalty. -/
theorem modeReads_length_read (m : AddrMode) (s : State) :
    (modeReads false m s).length + 2 = m.readCycles + indexPenalty (.mem m) s := by
  cases m with
  | zp | zpx | zpy | abs | izx | izp => rfl
  | abx => exact indexedReads_length (indexBase_bal false s.x (fetchBase s)) [s.pc, s.pc + 1] (operand2 s) s.x
  | aby => exact indexedReads_length (indexBase_bal false s.y (fetchBase s)) [s.pc, s.pc + 1] (operand2 s) s.y
  | izy =>
    have bal := (indexBase_bal false s.y (pointerBase s)).trans (pointerBase_bal s)
    exact indexedReads_length bal [s.pc, zeroPage (operand1 s), zeroPage (operand1 s + 1)] (hiByte (zpWord s)) s.y

theorem loadOperand_takes (m : ReadMode) (s : State) :
    TakesWithFetch (m.cycles + indexPenalty m s) s (loadOperand m s) := by
  cases m with
  | imm => rfl
  | mem m =>
    have reads := (address_afterReads false m s).cycles
    have length := modeReads_length_read m s
    show (address false m s).cycles + 1 + 1 = s.cycles + (m.readCycles + indexPenalty (.mem m) s)
    omega

theorem address_takes (m : AddrMode) (s : State) : (address true m s).cycles + 2 = s.cycles + m.writeCycles := by
  rw [(address_afterReads true m s).cycles, Nat.add_assoc, modeReads_length_always]

theorem storeOperand_takes (m : AddrMode) (v : Byte) (s : State) :
    TakesWithFetch m.writeCycles s (storeOperand m v s) :=
  address_takes m s

theorem modifyOperand_takes (m : AddrMode) (f : Byte → Byte) (s : State) :
    TakesWithFetch m.modifyCycles s (modifyOperand m f s) := by
  show (address true m s).cycles + 2 + 2 = s.cycles + (m.writeCycles + 2)
  rw [address_takes, Nat.add_assoc]

/-! ## Branches (R172, R173) -/

theorem takeBranch_cycles (s : State) : (takeBranch s).cycles = s.cycles + branchPenalty true s := by
  by_cases h : hiByte s.branchTarget = hiByte s.pc
  · rw [takeBranch_same_page (beq_iff_eq.mpr h), branchPenalty, if_pos rfl, if_pos h]
    rfl
  · rw [takeBranch_other_page (mt beq_iff_eq.mp h), branchPenalty, if_pos rfl, if_neg h]
    rfl

theorem takeBranch_if_cycles (cond : Bool) (s : State) :
    (if cond then takeBranch s else s).cycles = s.cycles + branchPenalty cond s := by
  cases cond with
  | true => exact takeBranch_cycles s
  | false => rfl

theorem afterOffset_takes (s : State) : TakesWithFetch 2 s (afterOffset s) := rfl

theorem afterBitOffset_takes (s : State) : TakesWithFetch 5 s (afterBitOffset s) := rfl

/-- What comes before the decision takes `k` cycles, the branch its penalty. -/
theorem takeBranch_if_takes {k : Nat} {s u : State} (h : TakesWithFetch k s u) (cond : Bool) :
    TakesWithFetch (k + branchPenalty cond u) s (if cond then takeBranch u else u) := by
  rw [TakesWithFetch, takeBranch_if_cycles, Nat.add_right_comm, h, Nat.add_assoc]

theorem branchIf_takes (cond : Bool) (s : State) :
    EndsIn (TakesWithFetch (2 + branchPenalty cond (afterOffset s))) s (branchIf cond s) :=
  ⟨_, branchIf_eq cond s, takeBranch_if_takes (afterOffset_takes s) cond⟩

theorem branchOnBit_takes (n : Nat) (value : Bool) (s : State) :
    EndsIn (TakesWithFetch (5 + bitBranchPenalty n value s)) s (branchOnBit n value s) :=
  ⟨_, branchOnBit_eq n value s, takeBranch_if_takes (afterBitOffset_takes s) _⟩

/-! ## The shapes of instruction that branch on their operand form -/

theorem stepOperand_takes (f : Byte → Byte) (m : RmwMode) (s : State) :
    EndsIn (TakesWithFetch m.cycles) s (stepOperand f m s) := by
  cases m with
  | acc => exact ⟨_, rfl, rfl⟩
  | mem m => exact ⟨_, rfl, modifyOperand_takes m f s⟩

theorem shiftOp_takes (f : Byte → Byte) (out : Nat) (m : RmwMode) (s : State) :
    EndsIn (TakesWithFetch m.cycles) s (shiftOp f out m s) := by
  cases m with
  | acc => exact ⟨_, rfl, rfl⟩
  | mem m => exact ⟨_, rfl, modifyOperand_takes m f s⟩

@[simp] theorem bitFlags_cycles (m : ReadMode) (v : Byte) (s : State) : (bitFlags m v s).cycles = s.cycles := by
  cases m <;> rfl

theorem execBit_takes (m : ReadMode) (s : State) :
    EndsIn (TakesWithFetch (m.cycles + indexPenalty m s)) s (execBit m s) :=
  ⟨_, rfl, (congrArg (· + 1) (bitFlags_cycles m _ _)).trans (loadOperand_takes m s)⟩

theorem execJmp_takes (m : JmpMode) (s : State) :
    EndsIn (TakesWithFetch ((Instr.jmp m).baseCycles s.cfg)) s (execJmp m s) := by
  cases m with
  | abs | iax => exact ⟨_, rfl, rfl⟩
  | ind =>
    rw [Instr.baseCycles]
    by_cases fixed : s.cfg.jmpIndFixed = true
    · rw [if_pos fixed]
      exact ⟨_, execJmp_ind_fixed fixed, rfl⟩
    · rw [if_neg fixed]
      exact ⟨_, execJmp_ind_buggy fixed, rfl⟩

theorem execNop_takes (f : NopForm) (s : State) :
    EndsIn (TakesWithFetch ((Instr.nop f).baseCycles s.cfg)) s (execNop f s) := by
  cases f with
  | imp | imp1 _ | abs8 => exact ⟨_, rfl, rfl⟩
  | imm _ | zp | zpx _ | abs _ => exact ⟨_, rfl, loadOperand_takes _ s⟩

theorem execIllegal_takes (op : Byte) (s : State) :
    EndsIn (TakesWithFetch ((Instr.illegal op).baseCycles s.cfg)) s (execIllegal op s) :=
  ⟨_, rfl, show s.cycles + _ + 1 = s.cycles + (1 + _) by omega⟩

/-! ## Every instruction -/

/-- Every instruction takes its base cycles and its penalty. -/
theorem exec_takes (i : Instr) (s : State) :
    EndsIn (TakesWithFetch (i.baseCycles s.cfg + penalty i s)) s (exec i s) := by
  cases i with
  | lda m | ldx m | ldy m | adc m | sbc m | cmp m | cpx m | cpy m | and m | ora m | eor m =>
    exact ⟨_, rfl, loadOperand_takes m s⟩
  | bit m => exact execBit_takes m s
  | sta m | stx m | sty m | stz m => exact ⟨_, rfl, storeOperand_takes m _ s⟩
  | inc m => exact stepOperand_takes (· + 1) m s
  | dec m => exact stepOperand_takes (· - 1) m s
  | asl m | lsr m | rol m | ror m => exact shiftOp_takes _ _ m s
  | tsb m => exact ⟨_, rfl, modifyOperand_takes m (· ||| s.a) s⟩
  | trb m => exact ⟨_, rfl, modifyOperand_takes m (· &&& (s.a ^^^ 0xFF)) s⟩
  | rmb0 | rmb1 | rmb2 | rmb3 | rmb4 | rmb5 | rmb6 | rmb7 | smb0 | smb1 | smb2 | smb3 | smb4 | smb5 | smb6 | smb7 =>
    exact ⟨_, rfl, modifyOperand_takes .zp _ s⟩
  | bcc | bcs | beq | bne | bmi | bpl | bvc | bvs | bra => exact branchIf_takes _ s
  | bbr0 | bbr1 | bbr2 | bbr3 | bbr4 | bbr5 | bbr6 | bbr7 | bbs0 | bbs1 | bbs2 | bbs3 | bbs4 | bbs5 | bbs6 | bbs7 =>
    exact branchOnBit_takes _ _ s
  | jmp m => exact execJmp_takes m s
  | nop f => exact execNop_takes f s
  | illegal op => exact execIllegal_takes op s
  | tax | tay | txa | tya | tsx | txs | inx | iny | dex | dey => exact ⟨_, rfl, rfl⟩
  | jsr | rts | rti | brk => exact ⟨_, rfl, rfl⟩
  | pha | php | phx | phy | pla | plp | plx | ply => exact ⟨_, rfl, rfl⟩
  | clc | sec | cli | sei | cld | sed | clv => exact ⟨_, rfl, rfl⟩

/-- Settles O18: every instruction ends at the boundary that counts its base cycles and its penalty. -/
theorem cycleCountLaw : Obligations.CycleCountLaw := by
  intro i s
  obtain ⟨u, hu, takes⟩ := exec_takes i s
  exact ⟨endInstr u, hu, takes.trans (Nat.add_assoc _ _ _).symm⟩

end Sys2Proof.Machine
end

section
/-! Bus accesses (R82, R85, R142, R144): one access for each cycle that is not idle, and writes by the storing instructions alone. -/

namespace Sys2Proof.Machine

open Sys2Proof.Certificates

theorem accessCount_append (new old : List BusEvent) : accessCount (new ++ old) = accessCount new + accessCount old := by
  induction new with
  | nil => exact (Nat.zero_add _).symm
  | cons e es ih =>
    cases e with
    | read a c | write a v c => rw [List.cons_append, accessCount, accessCount, ih, Nat.add_right_comm]
    | hook h => exact ih

/-- Settles O19: an instruction but the stub progresses, so its new accesses and its cycles are as many; the stub only idles. -/
theorem oneBusAccessPerCycle : Obligations.OneBusAccessPerCycle := by
  intro i s t h
  obtain hi | ⟨op, rfl⟩ := isIllegal_eq_false_or i
  · obtain ⟨u, hu, progress⟩ := exec_progress i hi s
    cases hu.symm.trans h
    obtain ⟨new, hnew⟩ := progress.suffix
    refine ⟨new, hnew.symm, fun _ => ?_, fun hstub => absurd (hi.symm.trans hstub) Bool.noConfusion⟩
    have count := progress.count
    rw [← hnew, accessCount_append] at count
    rw [endInstr_cycles]
    omega
  · cases h
    exact ⟨[], rfl, nofun, fun _ => rfl⟩

/-! ## Writes -/

/-- From `s` to `u` no write was made and memory is as it was. -/
def WritesNothing (s u : State) : Prop :=
  u.mem = s.mem ∧ writeEvents u.history = writeEvents s.history

theorem WritesNothing.refl (s : State) : WritesNothing s s := ⟨rfl, rfl⟩

theorem WritesNothing.trans {s t u : State} (h : WritesNothing s t) (k : WritesNothing t u) : WritesNothing s u :=
  ⟨k.1.trans h.1, k.2.trans h.2⟩

theorem writeEvents_append (new old : List BusEvent) : writeEvents (new ++ old) = writeEvents new ++ writeEvents old :=
  List.filterMap_append

theorem writeEvents_readEvents (c : Nat) (reads : List Word) : writeEvents (readEvents c reads).reverse = [] := by
  induction reads generalizing c with
  | nil => rfl
  | cons a as ih =>
    rw [readEvents, List.reverse_cons, writeEvents_append, ih]
    rfl

theorem AfterReads.writesNothing {reads : List Word} {s u : State} (h : AfterReads reads s u) : WritesNothing s u := by
  refine ⟨h.phase.mem, ?_⟩
  rw [h.history, historyAfter, writeEvents_append, writeEvents_readEvents]
  rfl

theorem loadOperand_writesNothing (m : ReadMode) (s : State) : WritesNothing s (loadOperand m s) :=
  (loadOperand_afterReads m s).writesNothing

theorem bitFlags_writesNothing (m : ReadMode) (v : Byte) (s : State) : WritesNothing s (bitFlags m v s) := by
  cases m <;> exact ⟨rfl, rfl⟩

theorem takeBranch_if_writesNothing (cond : Bool) (s : State) : WritesNothing s (if cond then takeBranch s else s) := by
  cases cond with
  | false => exact WritesNothing.refl s
  | true =>
    by_cases h : (hiByte s.branchTarget == hiByte s.pc) = true
    · rw [if_pos rfl, takeBranch_same_page h]
      exact ⟨rfl, rfl⟩
    · rw [if_pos rfl, takeBranch_other_page h]
      exact ⟨rfl, rfl⟩

theorem branchIf_writesNothing (cond : Bool) (s : State) : EndsIn WritesNothing s (branchIf cond s) :=
  ⟨_, rfl, WritesNothing.trans (t := afterOffset s) ⟨rfl, rfl⟩ (takeBranch_if_writesNothing cond _)⟩

theorem branchOnBit_writesNothing (n : Nat) (value : Bool) (s : State) : EndsIn WritesNothing s (branchOnBit n value s) :=
  ⟨_, rfl, WritesNothing.trans (t := afterBitOffset s) ⟨rfl, rfl⟩ (takeBranch_if_writesNothing _ _)⟩

theorem execJmp_writesNothing (m : JmpMode) (s : State) : EndsIn WritesNothing s (execJmp m s) := by
  cases m with
  | abs | iax => exact ⟨_, rfl, rfl, rfl⟩
  | ind =>
    by_cases fixed : s.cfg.jmpIndFixed = true
    · exact ⟨_, execJmp_ind_fixed fixed, rfl, rfl⟩
    · exact ⟨_, execJmp_ind_buggy fixed, rfl, rfl⟩

theorem execNop_writesNothing (f : NopForm) (s : State) : EndsIn WritesNothing s (execNop f s) := by
  cases f with
  | imp | imp1 _ | abs8 => exact ⟨_, rfl, rfl, rfl⟩
  | imm _ | zp | zpx _ | abs _ => exact ⟨_, rfl, loadOperand_writesNothing _ s⟩

/-- An instruction that is not among those that store writes nothing. -/
theorem exec_writesNothing {i : Instr} {s : State} (h : storesMemory i s = false) : EndsIn WritesNothing s (exec i s) := by
  cases i with
  | sta _ | stx _ | sty _ | stz _ | tsb _ | trb _ => cases h
  | rmb0 | rmb1 | rmb2 | rmb3 | rmb4 | rmb5 | rmb6 | rmb7 | smb0 | smb1 | smb2 | smb3 | smb4 | smb5 | smb6 | smb7 => cases h
  | pha | php | phx | phy | jsr | brk => cases h
  | inc m | dec m | asl m | lsr m | rol m | ror m =>
    cases m with
    | acc => exact ⟨_, rfl, rfl, rfl⟩
    | mem _ => cases h
  | lda m | ldx m | ldy m | adc m | sbc m | cmp m | cpx m | cpy m | and m | ora m | eor m =>
    exact ⟨_, rfl, loadOperand_writesNothing m s⟩
  | bit m => exact ⟨_, rfl, (loadOperand_writesNothing m s).trans (bitFlags_writesNothing m _ _)⟩
  | tax | tay | txa | tya | tsx | txs | inx | iny | dex | dey => exact ⟨_, rfl, rfl, rfl⟩
  | bcc | bcs | beq | bne | bmi | bpl | bvc | bvs | bra => exact branchIf_writesNothing _ s
  | bbr0 | bbr1 | bbr2 | bbr3 | bbr4 | bbr5 | bbr6 | bbr7 | bbs0 | bbs1 | bbs2 | bbs3 | bbs4 | bbs5 | bbs6 | bbs7 =>
    exact branchOnBit_writesNothing _ _ s
  | jmp m => exact execJmp_writesNothing m s
  | rts | rti => exact ⟨_, rfl, rfl, rfl⟩
  | pla | plp | plx | ply => exact ⟨_, rfl, rfl, rfl⟩
  | clc | sec | cli | sei | cld | sed | clv => exact ⟨_, rfl, rfl, rfl⟩
  | nop f => exact execNop_writesNothing f s
  | illegal op => exact ⟨_, rfl, rfl, rfl⟩

/-- Settles O22: an instruction that does not store ends in a state with the memory and the writes of its first. -/
theorem onlyStoresWrite : Obligations.OnlyStoresWrite := by
  intro i s t h hstores
  obtain ⟨u, ⟨hmem, hwrites⟩, rfl⟩ := (exec_writesNothing hstores).of_next h
  exact ⟨fun n => congrArg (Memory.get · n) hmem, hwrites⟩

end Sys2Proof.Machine
end

section
/-! The boundary step where no interrupt is taken (R140, R141). -/

namespace Sys2Proof.Machine

open Sys2Proof.Certificates

/-- The opcode fetch, written out. -/
theorem fetchOpcode_eq_afterFetch (s : State) : fetchOpcode s = afterFetch s := rfl

/-- A step that runs an instruction runs the one decoded from the byte fetched. -/
theorem step_of_runsInstruction {s : State} (h : RunsInstruction s) :
    step s = exec (decodeOpcode s.cfg.variant (fetchOpcode s).opcode) (fetchOpcode s) := by
  obtain ⟨ht, hnone⟩ := (runsInstruction_iff s).mp h
  rw [step, if_pos ht, hnone]

/-- Settles O5: no interrupt is pending, and the opcode fetched is the byte the bus answers at PC. -/
theorem stepRunsTheDecodedInstruction : Obligations.StepRunsTheDecodedInstruction := by
  rintro s i h rfl
  rw [step_of_runsInstruction h, fetchOpcode_eq_afterFetch]
  rfl

end Sys2Proof.Machine
end

section
/-! Loads, stores and transfers (R200 to R212): the operand cycles make the reads of their form and keep everything but PC, T and
the latches; then the instruction writes one register, or one byte of memory. -/

namespace Sys2Proof.Machine

open Sys2Proof.Certificates

/-! ## What the boundary after an operand phase has kept -/

section
variable {s u : State}

theorem OperandPhase.sameMemory (h : OperandPhase s u) : SameMemory s u := fun n => congrArg (Memory.get · n) h.mem

theorem OperandPhase.sameRegisters (h : OperandPhase s u) : SameRegisters s u := ⟨h.a, h.x, h.y, h.sp⟩

/-- The end of the instruction sets T to 0 (R49). -/
theorem OperandPhase.sameControl (h : OperandPhase s u) : SameControl s (endInstr u) :=
  ⟨h.opcode, h.nmi, h.irq, h.illegalSeen, h.cfg, rfl⟩

/-- SetNZ after an operand phase: N and Z from the byte, the other flags from the first state (R15). -/
theorem OperandPhase.setNZ_flags (h : OperandPhase s u) (v : Byte) : (setNZ v u).flags = flagsNZ s.flags v :=
  congrArg (flagsNZ · v) h.flags

/-- Everything but the registers, where an instruction ends with SetNZ of a byte after these reads. -/
theorem AfterReads.setNZ_effect {reads : List Word} (h : AfterReads reads s u) (v : Byte) :
    (setNZ v u).flags = flagsNZ s.flags v ∧ (setNZ v u).history = historyAfter s reads ∧
      SameMemory s (setNZ v u) ∧ SameControl s (endInstr (setNZ v u)) :=
  ⟨h.phase.setNZ_flags v, h.history, h.phase.sameMemory, h.phase.sameControl⟩

/-- A write after an operand phase changes the one byte at its address, where that is RAM (R72). -/
theorem OperandPhase.writeCycle_storesAt (h : OperandPhase s u) (hwf : Memory.wf s.mem = true) (addr : Word) (v : Byte) :
    StoresAt addr v s (writeCycle addr v u) := by
  have hget (n : Nat) : Memory.get (writeCycle addr v u).mem n
      = if n = addr.toNat ∧ s.isRam addr = true then v else Memory.get s.mem n := by
    rw [writeCycle_get (h.wf hwf), h.isRam_eq, h.mem]
  refine ⟨fun n hn => ?_, ?_⟩
  · rw [hget, if_neg fun both => hn both.1]
  · simp only [hget, true_and]

end

/-! ## Stores -/

/-- An instruction that is a store of `v` writes `v` at the effective address, in the cycle after the mode's last one. -/
theorem completes_storeOperand {i : Instr} {m : AddrMode} {v : Byte} {s : State} (hwf : Memory.wf s.mem = true)
    (hexec : exec i s = finish (storeOperand m v s)) :
    Completes i s (fun t =>
      StoresAt (storeAddr m s) v s t ∧
        t.history = .write (storeAddr m s) v (address true m s).cycles :: (address true m s).history ∧
        SameRegisters s t ∧ t.flags = s.flags ∧ SameControl s t) :=
  have phase := OperandPhase.address true m s
  ⟨_, hexec, phase.writeCycle_storesAt hwf _ v, rfl, phase.sameRegisters, phase.flags, phase.sameControl⟩

/-- Settles O29: each of the four is a store, of A, X, Y or 0. -/
theorem stores : Obligations.Stores := fun _ _ hwf =>
  ⟨completes_storeOperand hwf rfl, completes_storeOperand hwf rfl, completes_storeOperand hwf rfl,
    completes_storeOperand hwf rfl⟩

/-! ## Loads -/

/-- Settles O28: the reads of the operand form, then the operand byte into the register and SetNZ of it. -/
theorem loads : Obligations.Loads := by
  intro m s
  have reads := loadOperand_afterReads m s
  obtain ⟨ha, hx, hy, hsp⟩ := reads.phase.sameRegisters
  have effect := reads.setNZ_effect (operandByte m s)
  refine ⟨?lda, ?ldx, ?ldy⟩
  case lda => exact ⟨_, rfl, rfl, hx, hy, hsp, effect⟩
  case ldx => exact ⟨_, rfl, ha, rfl, hy, hsp, effect⟩
  case ldy => exact ⟨_, rfl, ha, hx, rfl, hsp, effect⟩

/-! ## Transfers -/

/-- The implied table makes one read, at PC (R146). -/
theorem implied_afterReads (s : State) : AfterReads [s.pc] s (implied s) :=
  ⟨OperandPhase.dummyRead s.pc s, rfl, rfl⟩

/-- Settles O30: the dummy read at PC, then the source register into the destination, with SetNZ of it but for TXS. -/
theorem transfers : Obligations.Transfers := by
  intro s
  have reads := implied_afterReads s
  refine ⟨?tax, ?tay, ?txa, ?tya, ?tsx, ?txs⟩
  case tax | tay => exact ⟨_, rfl, rfl, rfl, rfl, rfl, reads.setNZ_effect s.a⟩
  case txa => exact ⟨_, rfl, rfl, rfl, rfl, rfl, reads.setNZ_effect s.x⟩
  case tya => exact ⟨_, rfl, rfl, rfl, rfl, rfl, reads.setNZ_effect s.y⟩
  case tsx => exact ⟨_, rfl, rfl, rfl, rfl, rfl, reads.setNZ_effect s.sp⟩
  case txs => exact ⟨_, rfl, rfl, rfl, rfl, rfl, rfl, rfl, reads.phase.sameMemory, reads.phase.sameControl⟩

end Sys2Proof.Machine
end

section
/-! The arithmetic cores of 42_arithmetic.md (R230 to R236, R252), on numbers. SBC is ADC of the complemented operand, so its exact
difference follows from the exact sum; the decimal cores are their rules' sequences on the two nibbles, and on decimal digits each
adjustment is the carry or the borrow of a ten. -/

namespace Sys2Proof.Machine

open Sys2Proof.Certificates

/-! ## Bytes, nibbles and carries as numbers -/

/-- Bit 7 of a byte says that it is 128 or more. -/
theorem getLsbD_seven_iff (b : Byte) : b.getLsbD 7 = true ↔ 128 ≤ b.toNat := by
  rw [show b.getLsbD 7 = b.msb from (BitVec.msb_eq_getLsbD_last b).symm, BitVec.msb_eq_decide, decide_eq_true_iff]

/-- Masking with 0x80 tests bit 7. -/
theorem and_0x80_ne_zero (b : Byte) : ((b &&& 0x80) != 0) = b.getLsbD 7 := by
  revert b; decide

theorem ofInt_toNat (i : Int) : ((BitVec.ofInt 8 i).toNat : Int) = i % 256 := by
  rw [BitVec.toNat_ofInt]
  omega

/-- Complementing a byte negates its signed value, less one. -/
theorem toInt_complement (m : Byte) : (~~~m).toInt = -1 - m.toInt := by
  rw [BitVec.toInt_eq_toNat_cond, BitVec.toInt_eq_toNat_cond, BitVec.toNat_not]
  split <;> split <;> omega

theorem carryIn_eq_bit (c : Bool) : carryIn c = bit c := rfl

theorem bit_le_one (c : Bool) : bit c ≤ 1 := by
  cases c <;> decide

theorem bit_decide (p : Prop) [Decidable p] : bit (decide p) = if p then 1 else 0 := by
  by_cases h : p <;> simp [bit, h]

theorem lowNibble_eq (b : Byte) : lowNibble b = (b.toNat % 16 : Nat) := by
  rw [lowNibble, BitVec.toNat_and]
  exact congrArg Nat.cast (Nat.and_two_pow_sub_one_eq_mod b.toNat 4)

theorem highPart_toNat (b : Byte) : (highPart b).toNat = 16 * (b.toNat / 16) := by
  revert b; decide

theorem s8_highPart (b : Byte) : s8 (highPart b) = signedHigh b := by
  rw [s8, BitVec.toInt_eq_toNat_cond, highPart_toNat, signedHigh]
  split <;> split <;> omega

/-! ## The binary sum (R230) -/

theorem adcBinary_r_toNat (a m : Byte) (c : Bool) :
    (adcBinary a m c).r.toNat = (a.toNat + m.toNat + bit c) % 256 :=
  BitVec.toNat_ofNat _ _

theorem adcBinary_c (a m : Byte) (c : Bool) : (adcBinary a m c).c = decide (256 ≤ a.toNat + m.toNat + bit c) := rfl

theorem adcBinary_v (a m : Byte) (c : Bool) :
    (adcBinary a m c).v =
      ((a.getLsbD 7 ^^ (adcBinary a m c).r.getLsbD 7) && (m.getLsbD 7 ^^ (adcBinary a m c).r.getLsbD 7)) := by
  show ((a ^^^ (adcBinary a m c).r) &&& (m ^^^ (adcBinary a m c).r) &&& 0x80 != 0) = _
  rw [and_0x80_ne_zero, BitVec.getLsbD_and, BitVec.getLsbD_xor, BitVec.getLsbD_xor]

/-- Result and carry are the nine bits of the exact sum. -/
theorem adcBinary_sum (a m : Byte) (c : Bool) :
    (adcBinary a m c).r.toNat + 256 * bit (adcBinary a m c).c = a.toNat + m.toNat + bit c := by
  have hc := bit_le_one c
  rw [adcBinary_r_toNat, adcBinary_c, bit_decide]
  split <;> omega

/-- V says that the operands have one sign and the result the other. -/
theorem adcBinary_v_iff_signs (a m : Byte) (c : Bool) :
    (adcBinary a m c).v = true ↔
      (128 ≤ a.toNat ↔ 128 ≤ m.toNat) ∧ ¬ (128 ≤ a.toNat ↔ 128 ≤ (adcBinary a m c).r.toNat) := by
  simp only [adcBinary_v, ← getLsbD_seven_iff]
  cases a.getLsbD 7 <;> cases m.getLsbD 7 <;> simp

/-- The signed sum does not fit exactly where the signs say so. -/
theorem adcBinary_v_iff (a m : Byte) (c : Bool) :
    (adcBinary a m c).v = true ↔ a.toInt + m.toInt + bit c < -128 ∨ 127 < a.toInt + m.toInt + bit c := by
  have hc := bit_le_one c
  have hr := adcBinary_r_toNat a m c
  rw [adcBinary_v_iff_signs, BitVec.toInt_eq_toNat_cond, BitVec.toInt_eq_toNat_cond]
  split <;> split <;> omega

/-- Settles O32: the exact sum, and V by the three signs. -/
theorem binaryAdcIsTheExactSum : Obligations.BinaryAdcIsTheExactSum := fun a m c =>
  ⟨adcBinary_sum a m c, adcBinary_v_iff a m c, getLsbD_seven_iff _, beq_iff_eq⟩

/-! ## The binary difference (R234) -/

theorem sbcBinary_r_toNat (a m : Byte) (c : Bool) :
    ((sbcBinary a m c).r.toNat : Int) = ((a.toNat : Int) - m.toNat - (1 - bit c)) % 256 :=
  ofInt_toNat _

theorem sbcBinary_c (a m : Byte) (c : Bool) :
    (sbcBinary a m c).c = decide (0 ≤ (a.toNat : Int) - m.toNat - (1 - bit c)) := rfl

theorem sbcBinary_v (a m : Byte) (c : Bool) :
    (sbcBinary a m c).v =
      ((a.getLsbD 7 ^^ m.getLsbD 7) && (a.getLsbD 7 ^^ (sbcBinary a m c).r.getLsbD 7)) := by
  show ((a ^^^ m) &&& (a ^^^ (sbcBinary a m c).r) &&& 0x80 != 0) = _
  rw [and_0x80_ne_zero, BitVec.getLsbD_and, BitVec.getLsbD_xor, BitVec.getLsbD_xor]

theorem Arith.eq_of_fields {p q : Arith} (hr : p.r = q.r) (hn : p.n = q.n) (hv : p.v = q.v) (hz : p.z = q.z)
    (hc : p.c = q.c) : p = q := by
  cases p; cases q; cases hr; cases hn; cases hv; cases hz; cases hc; rfl

/-- The complement of M is 255 - M and has the other sign, so its sum is the difference, with the carry for no borrow. -/
theorem sbcBinary_eq_adcBinary (a m : Byte) (c : Bool) : sbcBinary a m c = adcBinary a (~~~m) c := by
  have hm := m.isLt
  have hr : (sbcBinary a m c).r = (adcBinary a (~~~m) c).r := by
    have difference := sbcBinary_r_toNat a m c
    refine BitVec.eq_of_toNat_eq ?_
    rw [adcBinary_r_toNat, BitVec.toNat_not]
    omega
  have hv : (sbcBinary a m c).v = (adcBinary a (~~~m) c).v := by
    rw [sbcBinary_v, adcBinary_v, hr, BitVec.getLsbD_not]
    cases a.getLsbD 7 <;> cases m.getLsbD 7 <;> simp
  have hc : (sbcBinary a m c).c = (adcBinary a (~~~m) c).c := by
    rw [sbcBinary_c, adcBinary_c, BitVec.toNat_not, decide_eq_decide]
    omega
  exact Arith.eq_of_fields hr (congrArg (BitVec.getLsbD · 7) hr) hv (congrArg (· == 0) hr) hc

/-- Settles O34: `M ^ 0xFF` is the complement of M. -/
theorem binarySbcIsAdcOfTheComplement : Obligations.BinarySbcIsAdcOfTheComplement := fun a m c =>
  (sbcBinary_eq_adcBinary a m c).trans (congrArg (adcBinary a · c) BitVec.xor_allOnes.symm)

/-- Settles O33: the exact sum with the complement, whose value is 255 - M unsigned and -1 - M signed. -/
theorem binarySbcIsTheExactDifference : Obligations.BinarySbcIsTheExactDifference := by
  intro a m c
  have hm := m.isLt
  have hsum := adcBinary_sum a (~~~m) c
  have hv := adcBinary_v_iff a (~~~m) c
  rw [← sbcBinary_eq_adcBinary, BitVec.toNat_not] at hsum
  rw [← sbcBinary_eq_adcBinary, toInt_complement] at hv
  refine ⟨?difference, hv.trans ?overflow, getLsbD_seven_iff _, beq_iff_eq⟩
  case difference => omega
  case overflow => omega

/-! ## The decimal sum (R231, R232) -/

/-- The sum of the low nibbles after its adjustment, a carry into the high nibble included. -/
def adjustedLowSum (a m : Byte) (c : Bool) : Nat :=
  let low := a.toNat % 16 + m.toNat % 16 + bit c
  if 10 ≤ low then (low + 6) % 16 + 16 else low

/-- The sum before the adjustment of the high nibble. -/
def decimalSum (a m : Byte) (c : Bool) : Nat :=
  16 * (a.toNat / 16) + 16 * (m.toNat / 16) + adjustedLowSum a m c

/-- The same sum with signed high nibbles. -/
def signedDecimalSum (a m : Byte) (c : Bool) : Int :=
  signedHigh a + signedHigh m + adjustedLowSum a m c

/-- The sum after both adjustments. -/
def adjustedSum (a m : Byte) (c : Bool) : Nat :=
  if 160 ≤ decimalSum a m c then decimalSum a m c + 96 else decimalSum a m c

/-- The NMOS core's sequence, on natural numbers. -/
theorem adcDecimalNmos_eq (a m : Byte) (c : Bool) :
    adcDecimalNmos a m c =
      { r := BitVec.ofNat 8 (adjustedSum a m c)
        n := (BitVec.ofNat 8 (decimalSum a m c)).getLsbD 7
        v := decide (signedDecimalSum a m c < -128) || decide (127 < signedDecimalSum a m c)
        z := (adcBinary a m c).z
        c := decide (256 ≤ adjustedSum a m c) } := by
  simp only [adcDecimalNmos, signedDecimalSum, adjustedSum, decimalSum, adjustedLowSum, lowNibble_eq, highPart_toNat,
    s8_highPart, carryIn_eq_bit]
  norm_cast

theorem adcDecimalNmos_r_toNat (a m : Byte) (c : Bool) : (adcDecimalNmos a m c).r.toNat = adjustedSum a m c % 256 := by
  rw [adcDecimalNmos_eq, BitVec.toNat_ofNat]

theorem adcDecimalNmos_c (a m : Byte) (c : Bool) : (adcDecimalNmos a m c).c = decide (256 ≤ adjustedSum a m c) := by
  rw [adcDecimalNmos_eq]

theorem adcDecimalNmos_c_iff (a m : Byte) (c : Bool) : (adcDecimalNmos a m c).c = true ↔ 256 ≤ adjustedSum a m c := by
  rw [adcDecimalNmos_c, decide_eq_true_iff]

theorem adcDecimalNmos_n_iff (a m : Byte) (c : Bool) :
    (adcDecimalNmos a m c).n = true ↔ 128 ≤ decimalSum a m c % 256 := by
  rw [adcDecimalNmos_eq, getLsbD_seven_iff, BitVec.toNat_ofNat]

theorem adcDecimalNmos_v_iff (a m : Byte) (c : Bool) :
    (adcDecimalNmos a m c).v = true ↔ signedDecimalSum a m c < -128 ∨ 127 < signedDecimalSum a m c := by
  rw [adcDecimalNmos_eq, Bool.or_eq_true, decide_eq_true_iff, decide_eq_true_iff]

/-- Z is that of the binary sum (C1). -/
theorem adcDecimalNmos_z_iff (a m : Byte) (c : Bool) :
    (adcDecimalNmos a m c).z = true ↔ (a.toNat + m.toNat + bit c) % 256 = 0 := by
  rw [← adcBinary_r_toNat]
  exact beq_iff_eq.trans BitVec.toNat_inj.symm

/-- On digits the low adjustment carries from ten. -/
theorem adjustedLowSum_of_isBcd {a m : Byte} (ha : IsBcd a) (hm : IsBcd m) (c : Bool) :
    ∃ carry ones, carry ≤ 1 ∧ ones ≤ 9 ∧ adjustedLowSum a m c = 16 * carry + ones ∧
      10 * carry + ones = a.toNat % 16 + m.toNat % 16 + bit c := by
  obtain ⟨-, ha⟩ := ha
  obtain ⟨-, hm⟩ := hm
  have hc := bit_le_one c
  rw [adjustedLowSum]
  by_cases ten : 10 ≤ a.toNat % 16 + m.toNat % 16 + bit c
  · rw [if_pos ten]
    exact ⟨1, a.toNat % 16 + m.toNat % 16 + bit c - 10, by omega⟩
  · rw [if_neg ten]
    exact ⟨0, a.toNat % 16 + m.toNat % 16 + bit c, by omega⟩

/-- On digits the high adjustment carries from a hundred, so both digits and the carry are those of the decimal sum (R252). -/
theorem adjustedSum_of_isBcd {a m : Byte} (ha : IsBcd a) (hm : IsBcd m) (c : Bool) :
    ∃ carry tens ones, tens ≤ 9 ∧ ones ≤ 9 ∧ adjustedSum a m c = 256 * carry + 16 * tens + ones ∧
      carry ≤ 1 ∧ 100 * carry + 10 * tens + ones = bcdValue a + bcdValue m + bit c := by
  obtain ⟨carry, ones, hcarry, hones, hlow, hdigits⟩ := adjustedLowSum_of_isBcd ha hm c
  obtain ⟨ha, -⟩ := ha
  obtain ⟨hm, -⟩ := hm
  rw [adjustedSum, decimalSum, hlow, bcdValue, bcdValue]
  by_cases hundred : 160 ≤ 16 * (a.toNat / 16) + 16 * (m.toNat / 16) + (16 * carry + ones)
  · rw [if_pos hundred]
    exact ⟨1, a.toNat / 16 + m.toNat / 16 + carry - 10, ones, by omega⟩
  · rw [if_neg hundred]
    exact ⟨0, a.toNat / 16 + m.toNat / 16 + carry, ones, by omega⟩

theorem adcDecimalNmos_of_isBcd {a m : Byte} (ha : IsBcd a) (hm : IsBcd m) (c : Bool) :
    IsBcd (adcDecimalNmos a m c).r ∧
      bcdValue (adcDecimalNmos a m c).r + 100 * bit (adcDecimalNmos a m c).c = bcdValue a + bcdValue m + bit c := by
  obtain ⟨carry, tens, ones, htens, hones, hsum, hcarry, hvalue⟩ := adjustedSum_of_isBcd ha hm c
  have hr : (adcDecimalNmos a m c).r.toNat = 16 * tens + ones := by
    rw [adcDecimalNmos_r_toNat, hsum]
    omega
  have hc : bit (adcDecimalNmos a m c).c = carry := by
    rw [adcDecimalNmos_c, bit_decide, hsum]
    split <;> omega
  rw [IsBcd, ← hvalue, bcdValue, hr, hc]
  omega

/-- Settles O35: the core's sequence on natural numbers, which on digits carries from ten and from a hundred. -/
theorem decimalAdc : Obligations.DecimalAdc := fun a m c =>
  ⟨adcDecimalNmos_r_toNat a m c, adcDecimalNmos_c_iff a m c, adcDecimalNmos_n_iff a m c,
    adcDecimalNmos_v_iff a m c, adcDecimalNmos_z_iff a m c, rfl, rfl, rfl, getLsbD_seven_iff _, beq_iff_eq,
    fun ha hm => adcDecimalNmos_of_isBcd ha hm c⟩

/-! ## The decimal difference (R235, R236) -/

/-- The difference of the low nibbles. -/
def lowDifference (a m : Byte) (c : Bool) : Int :=
  (a.toNat % 16 : Nat) - (m.toNat % 16 : Nat) + bit c - 1

/-- The NMOS rule's difference before the adjustment of the high nibble (R235). -/
def nibbleDifference (a m : Byte) (c : Bool) : Int :=
  (16 * (a.toNat / 16) : Nat) - (16 * (m.toNat / 16) : Nat) +
    if lowDifference a m c < 0 then (lowDifference a m c - 6) % 16 - 16 else lowDifference a m c

/-- The NMOS rule's difference after both adjustments (R235). -/
def adjustedNibbleDifference (a m : Byte) (c : Bool) : Int :=
  if nibbleDifference a m c < 0 then nibbleDifference a m c - 96 else nibbleDifference a m c

/-- The 65C02 rule's difference after both adjustments (R236). -/
def adjustedByteDifference (a m : Byte) (c : Bool) : Int :=
  let diff : Int := (a.toNat : Int) - m.toNat + bit c - 1
  let diff6 := if diff < 0 then diff - 96 else diff
  if lowDifference a m c < 0 then diff6 - 6 else diff6

theorem sbcDecimalNmos_r_toNat (a m : Byte) (c : Bool) :
    ((sbcDecimalNmos a m c).r.toNat : Int) = adjustedNibbleDifference a m c % 256 := by
  rw [adjustedNibbleDifference, nibbleDifference, lowDifference, ← lowNibble_eq, ← lowNibble_eq, ← highPart_toNat,
    ← highPart_toNat]
  exact ofInt_toNat _

theorem sbcDecimalCmos_r_toNat (a m : Byte) (c : Bool) :
    ((sbcDecimalCmos a m c).r.toNat : Int) = adjustedByteDifference a m c % 256 := by
  rw [adjustedByteDifference, lowDifference, ← lowNibble_eq, ← lowNibble_eq]
  exact ofInt_toNat _

theorem sbcDecimalNmos_c (a m : Byte) (c : Bool) : (sbcDecimalNmos a m c).c = (sbcBinary a m c).c := rfl

/-- On digits the low difference borrows a ten. -/
theorem lowDifference_of_isBcd {a m : Byte} (ha : IsBcd a) (hm : IsBcd m) (c : Bool) :
    ∃ borrow ones : Nat, ones ≤ 9 ∧ lowDifference a m c = ones - 10 * borrow ∧ borrow ≤ 1 := by
  obtain ⟨-, ha⟩ := ha
  obtain ⟨-, hm⟩ := hm
  have hc := bit_le_one c
  rw [lowDifference]
  by_cases negative : a.toNat % 16 + bit c < m.toNat % 16 + 1
  · exact ⟨1, a.toNat % 16 + bit c + 9 - m.toNat % 16, by omega⟩
  · exact ⟨0, a.toNat % 16 + bit c - 1 - m.toNat % 16, by omega⟩

/-- On digits the two rules differ in their order alone: the low nibble's adjustment takes one from the high nibble and leaves a
digit, and a negative difference borrows a hundred. -/
theorem adjustedDifferences_eq_of_isBcd {a m : Byte} (ha : IsBcd a) (hm : IsBcd m) (c : Bool) :
    ∃ high : Int, ∃ ones : Nat, -10 ≤ high ∧ high ≤ 9 ∧ ones ≤ 9 ∧
      adjustedNibbleDifference a m c = (if high < 0 then 16 * high + ones - 96 else 16 * high + ones) ∧
      adjustedByteDifference a m c = (if high < 0 then 16 * high + ones - 96 else 16 * high + ones) ∧
      10 * high + ones = (bcdValue a : Int) - bcdValue m - (1 - bit c) := by
  obtain ⟨borrow, ones, hones, hlow, hborrow⟩ := lowDifference_of_isBcd ha hm c
  obtain ⟨ha, -⟩ := ha
  obtain ⟨hm, -⟩ := hm
  refine ⟨(a.toNat / 16 : Nat) - (m.toNat / 16 : Nat) - borrow, ones, by omega, by omega, hones, ?nibbles, ?bytes, ?value⟩
  case nibbles =>
    have hsum : nibbleDifference a m c = 16 * ((a.toNat / 16 : Nat) - (m.toNat / 16 : Nat) - borrow) + ones := by
      rw [nibbleDifference, hlow]
      split <;> omega
    rw [adjustedNibbleDifference, hsum]
    split <;> split <;> omega
  case bytes =>
    have hdiff : (a.toNat : Int) - m.toNat + bit c - 1
        = 16 * ((a.toNat / 16 : Nat) - (m.toNat / 16 : Nat)) + (ones - 10 * borrow) := by
      rw [← hlow, lowDifference]
      omega
    rw [adjustedByteDifference, hlow, hdiff]
    split <;> split <;> split <;> omega
  case value =>
    rw [lowDifference] at hlow
    rw [bcdValue, bcdValue]
    omega

/-- The binary C says that the decimal difference of digits is not negative. -/
theorem sbcBinary_c_of_isBcd {a m : Byte} (ha : IsBcd a) (hm : IsBcd m) (c : Bool) :
    bit (sbcBinary a m c).c = if (bcdValue a : Int) - bcdValue m - (1 - bit c) < 0 then 0 else 1 := by
  obtain ⟨haHigh, haLow⟩ := ha
  obtain ⟨hmHigh, hmLow⟩ := hm
  have hc := bit_le_one c
  rw [sbcBinary_c, bit_decide, bcdValue, bcdValue]
  split <;> split <;> omega

theorem sbcDecimal_r_eq_of_isBcd {a m : Byte} (ha : IsBcd a) (hm : IsBcd m) (c : Bool) :
    (sbcDecimalCmos a m c).r = (sbcDecimalNmos a m c).r := by
  obtain ⟨_, _, -, -, -, hnibbles, hbytes, -⟩ := adjustedDifferences_eq_of_isBcd ha hm c
  have hr := sbcDecimalNmos_r_toNat a m c
  have hw := sbcDecimalCmos_r_toNat a m c
  rw [hnibbles] at hr
  rw [hbytes, ← hr] at hw
  exact BitVec.eq_of_toNat_eq (Int.ofNat.inj hw)

theorem sbcDecimalNmos_of_isBcd {a m : Byte} (ha : IsBcd a) (hm : IsBcd m) (c : Bool) :
    IsBcd (sbcDecimalNmos a m c).r ∧
      (bcdValue (sbcDecimalNmos a m c).r : Int) - 100 * (1 - bit (sbcDecimalNmos a m c).c) =
        (bcdValue a : Int) - bcdValue m - (1 - bit c) := by
  obtain ⟨high, ones, hmin, hmax, hones, hnibbles, -, hvalue⟩ := adjustedDifferences_eq_of_isBcd ha hm c
  have hr := sbcDecimalNmos_r_toNat a m c
  rw [hnibbles] at hr
  rw [IsBcd, sbcDecimalNmos_c, sbcBinary_c_of_isBcd ha hm, ← hvalue, bcdValue]
  by_cases negative : high < 0
  · rw [if_pos negative] at hr
    rw [if_pos (by omega)]
    omega
  · rw [if_neg negative] at hr
    rw [if_neg (by omega)]
    omega

/-- Settles O36: the cores' sequences, the flags of the binary core, and on digits a borrow of ten and of a hundred. -/
theorem decimalSbc : Obligations.DecimalSbc := fun a m c =>
  ⟨sbcDecimalNmos_r_toNat a m c, rfl, rfl, rfl, rfl, sbcDecimalCmos_r_toNat a m c, rfl, rfl, getLsbD_seven_iff _, beq_iff_eq,
    fun ha hm => ⟨sbcDecimal_r_eq_of_isBcd ha hm c, sbcDecimalNmos_of_isBcd ha hm c⟩⟩

end Sys2Proof.Machine
end

section
/-! The instructions of 42_arithmetic.md (R233 to R249): an operand phase, then a core's result into A and the flags, the flags of a
compare, or one byte more or less by 1 in a register or in memory. -/

namespace Sys2Proof.Machine

open Sys2Proof.Certificates

/-! ## ADC and SBC -/

theorem adcCore_eq (v : Variant) (d : Bool) (a m : Byte) (c : Bool) :
    adcCore v d a m c =
      if d then (if v = .nmos6502 then adcDecimalNmos a m c else adcDecimalCmos a m c) else adcBinary a m c := by
  cases v <;> rfl

theorem sbcCore_eq (v : Variant) (d : Bool) (a m : Byte) (c : Bool) :
    sbcCore v d a m c =
      if d then (if v = .nmos6502 then sbcDecimalNmos a m c else sbcDecimalCmos a m c) else sbcBinary a m c := by
  cases v <;> rfl

/-- An instruction that loads its operand and applies the result of a core writes A, N, V, Z and C, and nothing else. -/
theorem completes_applyArith {i : Instr} {q : Arith} {m : ReadMode} {s : State}
    (hexec : exec i s = finish (applyArith q (loadOperand m s))) :
    Completes i s (fun t =>
      t.a = q.r ∧ t.flags = { s.flags with n := q.n, v := q.v, z := q.z, c := q.c } ∧
        t.x = s.x ∧ t.y = s.y ∧ t.sp = s.sp ∧
        t.history = historyAfter s (operandReads m s) ∧ SameMemory s t ∧ SameControl s t) := by
  have reads := loadOperand_afterReads m s
  obtain ⟨-, hx, hy, hsp⟩ := reads.phase.sameRegisters
  refine ⟨_, hexec, rfl, ?_, hx, hy, hsp, reads.history, reads.phase.sameMemory, reads.phase.sameControl⟩
  rw [endInstr_flags, applyArith_flags, loadOperand_flags]

/-- Settles O31: each applies its core to A, the operand byte and C, which the operand cycles leave alone. -/
theorem addAndSubtractApplyTheirCore : Obligations.AddAndSubtractApplyTheirCore := by
  intro m s
  refine ⟨completes_applyArith ?adc, completes_applyArith ?sbc⟩
  case adc => rw [← adcCore_eq, ← loadOperand_cfg m, ← loadOperand_flags m, ← loadOperand_a m]; rfl
  case sbc => rw [← sbcCore_eq, ← loadOperand_cfg m, ← loadOperand_flags m, ← loadOperand_a m]; rfl

/-! ## Compares -/

/-- The difference of two bytes mod 256. -/
theorem ofInt_toNat_sub_toNat (r m : Byte) : BitVec.ofInt 8 ((r.toNat : Int) - m.toNat) = r - m := by
  refine BitVec.eq_of_toNat_eq ?_
  rw [BitVec.toNat_ofInt, BitVec.toNat_sub]
  omega

theorem compareFlags_c_iff (r m : Byte) (f : Flags) : (compareFlags r m f).c = true ↔ m.toNat ≤ r.toNat := by
  rw [compareFlags, decide_eq_true_iff]
  omega

theorem compareFlags_z_iff (r m : Byte) (f : Flags) : (compareFlags r m f).z = true ↔ r = m := by
  rw [compareFlags, decide_eq_true_iff, ← BitVec.toNat_inj]
  omega

theorem compareFlags_n (r m : Byte) (f : Flags) : (compareFlags r m f).n = (r - m).getLsbD 7 := by
  rw [compareFlags, ofInt_toNat_sub_toNat]

/-- An instruction that loads its operand and compares a register with it writes N, Z and C, and nothing else (R238). -/
theorem completes_compare {i : Instr} {r : Byte} {m : ReadMode} {s : State}
    (hexec : exec i s = finish (compare r (operandByte m s) (loadOperand m s))) :
    Completes i s (fun t =>
      (t.flags.c = true ↔ (operandByte m s).toNat ≤ r.toNat) ∧ (t.flags.z = true ↔ r = operandByte m s) ∧
        t.flags.n = (r - operandByte m s).getLsbD 7 ∧
        t.flags.v = s.flags.v ∧ t.flags.d = s.flags.d ∧ t.flags.i = s.flags.i ∧
        t.history = historyAfter s (operandReads m s) ∧ SameRegisters s t ∧ SameMemory s t ∧ SameControl s t) := by
  have reads := loadOperand_afterReads m s
  have phase := reads.phase
  exact ⟨_, hexec, compareFlags_c_iff _ _ _, compareFlags_z_iff _ _ _, compareFlags_n _ _ _,
    congrArg (·.v) phase.flags, congrArg (·.d) phase.flags, congrArg (·.i) phase.flags,
    reads.history, phase.sameRegisters, phase.sameMemory, phase.sameControl⟩

/-- Settles O37: the compared register is as it was before the operand cycles. -/
theorem compares : Obligations.Compares := by
  intro m s
  refine ⟨completes_compare ?cmp, completes_compare ?cpx, completes_compare ?cpy⟩
  case cmp => rw [← loadOperand_a m]; rfl
  case cpx => rw [← loadOperand_x m]; rfl
  case cpy => rw [← loadOperand_y m]; rfl

/-! ## Increments and decrements -/

/-- A second write at the address of the first replaces its byte (R151). -/
theorem storesAt_writeCycle {addr : Word} {v : Byte} {s u : State} (h : StoresAt addr v s u)
    (hwf : Memory.wf u.mem = true) (hcfg : u.cfg = s.cfg) (w : Byte) :
    StoresAt addr w s (writeCycle addr w u) := by
  have hram : u.isRam addr = s.isRam addr := by rw [State.isRam, State.isRam, hcfg]
  obtain ⟨hother, haddr⟩ := h
  refine ⟨fun n hn => ?_, ?_⟩
  · rw [writeCycle_get hwf, if_neg fun both => hn both.1, hother n hn]
  · rw [writeCycle_get hwf, hram, haddr]
    by_cases h : s.isRam addr = true <;> simp [h]

/-- A read-modify-write leaves `f` of the byte it read at the effective address, where that is RAM. -/
theorem modifyOperand_storesAt {s : State} (hwf : Memory.wf s.mem = true) (m : AddrMode) (f : Byte → Byte) :
    StoresAt (storeAddr m s) (f (oldByte m s)) s (modifyOperand m f s) := by
  have phase := (OperandPhase.address true m s).trans (OperandPhase.readTo latchDest_setDATA (storeAddr m s) _)
  have unmodified := phase.writeCycle_storesAt hwf (storeAddr m s) (oldByte m s)
  exact storesAt_writeCycle unmodified (writeCycle_wf (phase.wf hwf) _ _) phase.cfg _

theorem modifyOperand_sameRegisters (m : AddrMode) (f : Byte → Byte) (s : State) :
    SameRegisters s (modifyOperand m f s) :=
  (OperandPhase.address true m s).sameRegisters

theorem modifyOperand_sameControl (m : AddrMode) (f : Byte → Byte) (s : State) :
    SameControl s (endInstr (modifyOperand m f s)) :=
  (OperandPhase.address true m s).sameControl

/-- INC and DEC of memory: a byte function on the byte at the effective address, with SetNZ of the result (R242, R244). -/
theorem completes_stepOperand_mem {i : Instr} {f : Byte → Byte} {m : AddrMode} {s : State} (hwf : Memory.wf s.mem = true)
    (hexec : exec i s = stepOperand f (.mem m) s) :
    Completes i s (fun t => StoresAt (storeAddr m s) (f (oldByte m s)) s t ∧ t.flags = flagsNZ s.flags (f (oldByte m s)) ∧
      SameRegisters s t ∧ SameControl s t) :=
  ⟨_, hexec, modifyOperand_storesAt hwf m f, congrArg (flagsNZ · _) (modifyOperand_flags m f s),
    modifyOperand_sameRegisters m f s, modifyOperand_sameControl m f s⟩

/-- Settles O38: in memory a read-modify-write, in A the dummy read at PC and the byte function, each with SetNZ of the result. -/
theorem incrementsAndDecrements : Obligations.IncrementsAndDecrements := by
  intro s
  have reads := implied_afterReads s
  have phase := reads.phase
  refine ⟨fun m hwf => ⟨?inc, ?dec⟩, ?incA, ?decA⟩
  case inc => exact completes_stepOperand_mem (f := (· + 1)) hwf rfl
  case dec => exact completes_stepOperand_mem (f := (· - 1)) hwf rfl
  case incA | decA =>
    exact ⟨_, rfl, rfl, phase.setNZ_flags _, rfl, rfl, rfl, reads.history, phase.sameMemory, phase.sameControl⟩

/-- Settles O39: the dummy read at PC, then the register one more or less, with SetNZ of it. -/
theorem indexIncrementsAndDecrements : Obligations.IndexIncrementsAndDecrements := by
  intro s
  have reads := implied_afterReads s
  have phase := reads.phase
  refine ⟨?inx, ?iny, ?dex, ?dey⟩
  case inx | iny | dex | dey =>
    exact ⟨_, rfl, rfl, phase.setNZ_flags _, rfl, rfl, rfl, reads.history, phase.sameMemory, phase.sameControl⟩

end Sys2Proof.Machine
end

section
/-! The instructions of 43_logic_shift_bit.md (R270 to R281): a logical function of A and the operand byte, BIT's test, and the
read-modify-writes, each of which leaves a byte function of the old byte in memory and writes at most the flags. -/

namespace Sys2Proof.Machine

open Sys2Proof.Certificates

/-! ## AND, ORA, EOR and BIT -/

/-- The operand cycles leave A alone, so the function is of A as it was. -/
theorem logicOp_eq (f : Byte → Byte → Byte) (m : ReadMode) (s : State) :
    logicOp f m s = finish (setNZ (f s.a (operandByte m s)) (setA (f s.a (operandByte m s)) (loadOperand m s))) := by
  rw [logicOp, loadOperand_a]
  rfl

/-- A logical function of A and the operand byte goes to A, with SetNZ of it, and nothing else is written. -/
theorem completes_logicOp {i : Instr} {f : Byte → Byte → Byte} {m : ReadMode} {s : State} (hexec : exec i s = logicOp f m s) :
    Completes i s (fun t =>
      t.a = f s.a (operandByte m s) ∧ t.flags = flagsNZ s.flags (f s.a (operandByte m s)) ∧
        t.x = s.x ∧ t.y = s.y ∧ t.sp = s.sp ∧
        t.history = historyAfter s (operandReads m s) ∧ SameMemory s t ∧ SameControl s t) := by
  have reads := loadOperand_afterReads m s
  have phase := reads.phase
  exact ⟨_, hexec.trans (logicOp_eq f m s), rfl, phase.setNZ_flags _, phase.x, phase.y, phase.sp,
    reads.history, phase.sameMemory, phase.sameControl⟩

/-- Settles O40: the three logical functions. -/
theorem logicalOperations : Obligations.LogicalOperations := fun _ _ =>
  ⟨completes_logicOp (f := (· &&& ·)) rfl, completes_logicOp (f := (· ||| ·)) rfl,
    completes_logicOp (f := (· ^^^ ·)) rfl⟩

/-- BIT writes flags only; N and V are left out in the immediate form. -/
theorem bitFlags_eq (m : ReadMode) (v : Byte) (s : State) :
    bitFlags m v s =
      { s with flags := if m = .imm then { s.flags with z := (s.a &&& v) == 0 }
          else { s.flags with z := (s.a &&& v) == 0, n := v.getLsbD 7, v := v.getLsbD 6 } } := by
  cases m with
  | imm => rfl
  | mem m => rw [if_neg nofun]; rfl

/-- Settles O41: the reads of the operand form, then the flags of A and the operand byte. -/
theorem bitTest : Obligations.BitTest := by
  intro m s
  have reads := loadOperand_afterReads m s
  have phase := reads.phase
  refine ⟨_, congrArg finish (bitFlags_eq m (operandByte m s) (loadOperand m s)), ?flags,
    reads.history, phase.sameRegisters, phase.sameMemory, phase.sameControl⟩
  case flags => rw [endInstr_flags, phase.flags, phase.a]

/-! ## Read-modify-writes -/

/-- A read-modify-write that ends in a change of the flags leaves `f` of the old byte at the effective address, where that is RAM,
and changes nothing else. -/
theorem completes_modifyOperand {i : Instr} {f : Byte → Byte} {g : Flags → Flags} {m : AddrMode} {s : State}
    (hwf : Memory.wf s.mem = true)
    (hexec : exec i s = finish { modifyOperand m f s with flags := g (modifyOperand m f s).flags }) :
    Completes i s (fun t => StoresAt (storeAddr m s) (f (oldByte m s)) s t ∧ t.flags = g s.flags ∧
      SameRegisters s t ∧ SameControl s t) :=
  ⟨_, hexec, modifyOperand_storesAt hwf m f, congrArg g (modifyOperand_flags m f s),
    modifyOperand_sameRegisters m f s, modifyOperand_sameControl m f s⟩

/-! ## Shifts and rotates -/

/-- The flags of a shift: N and Z from the new byte, C from bit `out` of the old one. -/
def shiftFlags (f : Byte → Byte) (out : Nat) (old : Byte) (flags : Flags) : Flags :=
  { flagsNZ flags (f old) with c := old.getLsbD out }

theorem completes_shiftOp_mem {i : Instr} {f : Byte → Byte} {out : Nat} {m : AddrMode} {s : State}
    (hwf : Memory.wf s.mem = true) (hexec : exec i s = shiftOp f out (.mem m) s) :
    Completes i s (fun t =>
      StoresAt (storeAddr m s) (f (oldByte m s)) s t ∧ t.flags = shiftFlags f out (oldByte m s) s.flags ∧
        SameRegisters s t ∧ SameControl s t) :=
  completes_modifyOperand hwf hexec

/-- The accumulator form makes one read, at PC (R147). -/
theorem completes_shiftOp_acc {i : Instr} {f : Byte → Byte} {out : Nat} {s : State}
    (hexec : exec i s = shiftOp f out .acc s) :
    Completes i s (fun t =>
      t.a = f s.a ∧ t.flags = shiftFlags f out s.a s.flags ∧ t.x = s.x ∧ t.y = s.y ∧ t.sp = s.sp ∧
        t.history = .read s.pc s.cycles :: s.history ∧ SameMemory s t ∧ SameControl s t) :=
  have reads := implied_afterReads s
  ⟨_, hexec, rfl, rfl, rfl, rfl, rfl, reads.history, reads.phase.sameMemory, reads.phase.sameControl⟩

/-- ROL with the bit that enters written out (R276). -/
theorem exec_rol (m : RmwMode) (s : State) :
    exec (.rol m) s = shiftOp (fun b => (b <<< 1) ||| if s.flags.c then 0x01 else 0x00) 7 m s :=
  rfl

/-- ROR with the bit that enters written out (R277). -/
theorem exec_ror (m : RmwMode) (s : State) :
    exec (.ror m) s = shiftOp (fun b => (b >>> 1) ||| if s.flags.c then 0x80 else 0x00) 0 m s :=
  rfl

/-- Settles O42: each is a shift, of memory a read-modify-write and of A a byte function after the dummy read. -/
theorem shiftsAndRotates : Obligations.ShiftsAndRotates := by
  intro s
  refine ⟨fun m hwf => ⟨?asl, ?lsr, ?rol, ?ror⟩, ?aslA, ?lsrA, ?rolA, ?rorA⟩
  case asl => exact completes_shiftOp_mem (f := (· <<< 1)) hwf rfl
  case lsr => exact completes_shiftOp_mem (f := (· >>> 1)) hwf rfl
  case rol => exact completes_shiftOp_mem hwf (exec_rol _ s)
  case ror => exact completes_shiftOp_mem hwf (exec_ror _ s)
  case aslA => exact completes_shiftOp_acc (f := (· <<< 1)) rfl
  case lsrA => exact completes_shiftOp_acc (f := (· >>> 1)) rfl
  case rolA => exact completes_shiftOp_acc (exec_rol _ s)
  case rorA => exact completes_shiftOp_acc (exec_ror _ s)

/-! ## TSB and TRB -/

/-- The complement of a byte as the model writes it (R279, R280). -/
theorem xor_0xFF (b : Byte) : b ^^^ 0xFF = ~~~b := BitVec.xor_allOnes

/-- A read-modify-write that ends in the test of A and the old byte writes Z and no other flag. -/
theorem completes_testBits {i : Instr} {f : Byte → Byte} {m : AddrMode} {s : State} (hwf : Memory.wf s.mem = true)
    (hexec : exec i s = finish (testBits (oldByte m s) (modifyOperand m f s))) :
    Completes i s (fun t =>
      StoresAt (storeAddr m s) (f (oldByte m s)) s t ∧ t.flags = { s.flags with z := (s.a &&& oldByte m s) == 0 } ∧
        SameRegisters s t ∧ SameControl s t) := by
  rw [← modifyOperand_a m f s]
  exact completes_modifyOperand (g := fun flags => { flags with z := ((modifyOperand m f s).a &&& oldByte m s) == 0 }) hwf hexec

/-- Settles O43: the test is of the old byte, which the read-modify-write leaves in the latch DATA. -/
theorem testAndSetOrResetBits : Obligations.TestAndSetOrResetBits := by
  intro m s hwf
  refine ⟨completes_testBits (f := (· ||| s.a)) hwf rfl, ?_⟩
  rw [← xor_0xFF]
  exact completes_testBits (f := (· &&& (s.a ^^^ 0xFF))) hwf rfl

/-! ## RMB and SMB -/

/-- The byte function writes `value` to bit `n` and keeps the other bits. -/
def WritesBit (n : Nat) (value : Bool) (f : Byte → Byte) : Prop :=
  ∀ (b : Byte) (k : Nat), k < 8 → (f b).getLsbD k = if k = n then value else b.getLsbD k

theorem bitMask_getLsbD {n : Nat} (hn : n < 8) (k : Nat) : (bitMask n).getLsbD k = decide (k = n) := by
  simp [bitMask, hn, eq_comm]

theorem writesBit_reset {n : Nat} (hn : n < 8) : WritesBit n false (fun b => b &&& (bitMask n ^^^ 0xFF)) := by
  intro b k hk
  simp only [xor_0xFF, BitVec.getLsbD_and, BitVec.getLsbD_not, bitMask_getLsbD hn]
  by_cases h : k = n <;> simp [h, hk]

theorem writesBit_set {n : Nat} (hn : n < 8) : WritesBit n true (fun b => b ||| bitMask n) := by
  intro b k _
  simp only [BitVec.getLsbD_or, bitMask_getLsbD hn]
  by_cases h : k = n <;> simp [h]

/-- A zero-page read-modify-write of one bit, which ends without touching the flags (R280, R281). -/
theorem completes_writesBit {i : Instr} {n : Nat} {value : Bool} {f : Byte → Byte} {s : State}
    (hwf : Memory.wf s.mem = true) (hf : WritesBit n value f) (hexec : exec i s = finish (modifyOperand .zp f s)) :
    Completes i s (fun t =>
      (∃ new : Byte, StoresAt (storeAddr .zp s) new s t ∧
        ∀ k : Nat, k < 8 → new.getLsbD k = if k = n then value else (oldByte .zp s).getLsbD k) ∧
      t.flags = s.flags ∧ SameRegisters s t ∧ SameControl s t) := by
  obtain ⟨t, ht, stored, rest⟩ := completes_modifyOperand (f := f) (g := id) (m := .zp) hwf hexec
  exact ⟨t, ht, ⟨_, stored, hf _⟩, rest⟩

/-- Settles O44: eight masks reset a bit and eight set one. -/
theorem resetAndSetMemoryBits : Obligations.ResetAndSetMemoryBits := by
  intro s hwf
  refine ⟨⟨?r0, ?r1, ?r2, ?r3, ?r4, ?r5, ?r6, ?r7⟩, ?s0, ?s1, ?s2, ?s3, ?s4, ?s5, ?s6, ?s7⟩
  case r0 | r1 | r2 | r3 | r4 | r5 | r6 | r7 => exact completes_writesBit hwf (writesBit_reset (by decide)) rfl
  case s0 | s1 | s2 | s3 | s4 | s5 | s6 | s7 => exact completes_writesBit hwf (writesBit_set (by decide)) rfl

end Sys2Proof.Machine
end


section
/-! Branches (R310, R326, R327). A branch is a phase of operand reads that ends with the offset fetch, and then `takeBranch` where it
is taken: what the phase does is the instruction's own, what follows is the same for all of them. -/

namespace Sys2Proof.Machine

open Sys2Proof.Certificates

theorem takeBranch_pc (s : State) : (takeBranch s).pc = s.branchTarget := by
  by_cases page : (hiByte s.branchTarget == hiByte s.pc) = true
  · rw [takeBranch_same_page page]
    rfl
  · rw [takeBranch_other_page page]
    rfl

/-- The dummy reads of a taken branch: at the next instruction, and in its page at the target's low byte where the pages differ
(R172 c3, c4). -/
theorem takeBranch_history (s : State) :
    (takeBranch s).history =
      if hiByte s.branchTarget = hiByte s.pc then .read s.pc s.cycles :: s.history
      else .read (word (hiByte s.pc) (loByte s.branchTarget)) (s.cycles + 1) :: .read s.pc s.cycles :: s.history := by
  by_cases page : hiByte s.branchTarget = hiByte s.pc
  · rw [takeBranch_same_page (beq_iff_eq.mpr page), if_pos page]
    rfl
  · rw [takeBranch_other_page (mt beq_iff_eq.mp page), if_neg page]
    rfl

/-- An instruction that branches from `u`, where `taken`, after an operand phase of `k` cycles: target, accesses and cycles, and
nothing else changed. -/
theorem completes_branch {i : Instr} {s u : State} {k : Nat} {taken : Prop} [Decidable taken] (phase : OperandPhase s u)
    (hcycles : u.cycles = s.cycles + k) (hexec : exec i s = finish (if taken then takeBranch u else u)) :
    Completes i s (fun t =>
      t.pc = (if taken then u.branchTarget else u.pc) ∧
      t.history = (if taken then
          (if hiByte u.branchTarget = hiByte u.pc then .read u.pc (s.cycles + k) :: u.history
            else .read (word (hiByte u.pc) (loByte u.branchTarget)) (s.cycles + k + 1) :: .read u.pc (s.cycles + k) :: u.history)
        else u.history) ∧
      t.cycles = s.cycles + (if taken then (if hiByte u.branchTarget = hiByte u.pc then k + 1 else k + 2) else k) ∧
      SameRegisters s t ∧ t.flags = s.flags ∧ SameMemory s t ∧ SameControl s t) := by
  by_cases htaken : taken
  · simp only [if_pos htaken] at hexec ⊢
    have whole := phase.trans (OperandPhase.takeBranch u)
    refine ⟨_, hexec, takeBranch_pc u, ?history, ?cycles, whole.sameRegisters, whole.flags, whole.sameMemory, whole.sameControl⟩
    case history => rw [endInstr_history, takeBranch_history, hcycles]
    case cycles =>
      rw [endInstr_cycles, takeBranch_cycles, branchPenalty, if_pos rfl, hcycles, Nat.add_assoc]
      split <;> rfl
  · simp only [if_neg htaken] at hexec ⊢
    exact ⟨_, hexec, rfl, rfl, hcycles, phase.sameRegisters, phase.flags, phase.sameMemory, phase.sameControl⟩

/-- The nine relative branches are `branchIf` of their condition (R311 to R319). -/
theorem exec_of_branchCondition {i : Instr} {s : State} {cond : Bool} (h : branchCondition i s.flags = some cond) :
    exec i s = branchIf cond s := by
  cases i with
  | bcc | bcs | beq | bne | bmi | bpl | bvc | bvs | bra => cases h; rfl
  | _ => cases h

/-- Settles O46: the operand phase of a relative branch is the offset fetch. -/
theorem relativeBranches : Obligations.RelativeBranches := fun _ s _ hcond =>
  completes_branch (u := afterOffset s) (k := 1) (OperandPhase.fetchTo latchDest_setOFF s) rfl (exec_of_branchCondition hcond)

/-- The sixteen bit branches are `branchOnBit` of their bit and value (R326, R327). -/
theorem exec_of_bitBranch {i : Instr} {n : Nat} {value : Bool} (h : bitBranch i = some (n, value)) (s : State) :
    exec i s = branchOnBit n value s := by
  cases i with
  | bbr0 | bbr1 | bbr2 | bbr3 | bbr4 | bbr5 | bbr6 | bbr7 | bbs0 | bbs1 | bbs2 | bbs3 | bbs4 | bbs5 | bbs6 | bbs7 =>
    cases h; rfl
  | _ => cases h

/-- `branchOnBit` with its condition as a proposition. -/
theorem branchOnBit_eq_ite (n : Nat) (value : Bool) (s : State) :
    branchOnBit n value s =
      finish (if (afterBitOffset s).lat.data.getLsbD n = value then takeBranch (afterBitOffset s) else afterBitOffset s) :=
  congrArg finish (if_congr beq_iff_eq rfl rfl)

theorem pc_add_two (w : Word) : w + 2 = w + 1 + 1 := (add_one_add_one w).symm

/-- Settles O47: the operand phase of a bit branch fetches the zero-page address, reads the byte there twice and fetches the
offset. -/
theorem bitBranches : Obligations.BitBranches := by
  intro i s n value hbit
  rw [pc_add_two]
  exact completes_branch (u := afterBitOffset s) (k := 4) (OperandPhase.afterBitOffset s) rfl
    ((exec_of_bitBranch hbit s).trans (branchOnBit_eq_ite n value s))

end Sys2Proof.Machine
end

section
/-! Control that goes through a word of memory: two reads, low byte first, into the address latches. JMP's three forms (R320 to R322)
and the returns (R324, R325) end this way. -/

namespace Sys2Proof.Machine

open Sys2Proof.Certificates

/-! ## A word read -/

/-- What the bus answers in a state that memory at that address, the configuration, the history and the cycle counter describe. -/
theorem busAnswer_eq_answerAt {s u : State} {addr : Word} {k : Nat} {h : List BusEvent} (hcfg : u.cfg = s.cfg)
    (hmem : Memory.get u.mem addr.toNat = Memory.get s.mem addr.toNat) (hh : u.history = h) (hcy : u.cycles = s.cycles + k) :
    busAnswer addr u = answerAt s k h addr := by
  rw [busAnswer, State.isRam, hcfg, hmem, hh, hcy]
  rfl

/-- The two reads of a word, its low byte at `lo` and its high byte at `hi`. -/
def readWord (lo hi : Word) (s : State) : State := readTo setADH hi (readTo setADL lo s)

theorem OperandPhase.readWord (lo hi : Word) (u : State) : OperandPhase u (readWord lo hi u) :=
  (OperandPhase.readTo latchDest_setADL lo u).trans (OperandPhase.readTo latchDest_setADH hi _)

theorem readWord_history (lo hi : Word) (u : State) :
    (readWord lo hi u).history = .read hi (u.cycles + 1) :: .read lo u.cycles :: u.history := rfl

theorem readWord_ad (lo hi : Word) (u : State) :
    (readWord lo hi u).ad = word (busAnswer hi (readCycle lo u)) (busAnswer lo u) := rfl

section
variable {i : Instr} {s u : State} {k : Nat} {h : List BusEvent} {lo hi : Word}

/-- What the bus answers after an operand phase of `k` cycles. -/
theorem OperandPhase.busAnswer_eq (phase : OperandPhase s u) (hh : u.history = h) (hcy : u.cycles = s.cycles + k) (addr : Word) :
    busAnswer addr u = answerAt s k h addr :=
  busAnswer_eq_answerAt phase.cfg (by rw [phase.mem]) hh hcy

/-- The word read after an operand phase of `k` cycles. -/
theorem OperandPhase.readWord_ad (phase : OperandPhase s u) (hh : u.history = h) (hcy : u.cycles = s.cycles + k) (lo hi : Word) :
    (Machine.readWord lo hi u).ad = word (answerAt s (k + 1) (.read lo (s.cycles + k) :: h) hi) (answerAt s k h lo) := by
  have afterLow := phase.trans (OperandPhase.readCycle lo u)
  have hh' : (Machine.readCycle lo u).history = .read lo (s.cycles + k) :: h := by rw [readCycle_history, hh, hcy]
  have hcy' : (Machine.readCycle lo u).cycles = s.cycles + (k + 1) := by rw [readCycle_cycles, hcy, Nat.add_assoc]
  exact congrArg₂ word (afterLow.busAnswer_eq hh' hcy' hi) (phase.busAnswer_eq hh hcy lo)

/-- An instruction that jumps to the word read at `lo` and `hi` after an operand phase of `k` cycles. -/
theorem completes_jumpThrough (phase : OperandPhase s u) (hh : u.history = h) (hcy : u.cycles = s.cycles + k)
    (hexec : exec i s = finish (setPC (readWord lo hi u).ad (readWord lo hi u))) :
    Completes i s (fun t =>
      t.pc = word (answerAt s (k + 1) (.read lo (s.cycles + k) :: h) hi) (answerAt s k h lo) ∧
      t.history = .read hi (s.cycles + (k + 1)) :: .read lo (s.cycles + k) :: h ∧
      SameRegisters s t ∧ t.flags = s.flags ∧ SameMemory s t ∧ SameControl s t) := by
  have whole := phase.trans (OperandPhase.readWord lo hi u)
  refine ⟨_, hexec, phase.readWord_ad hh hcy lo hi, ?history, whole.sameRegisters, whole.flags, whole.sameMemory,
    whole.sameControl⟩
  case history => rw [endInstr_history, setPC_history, readWord_history, hh, hcy, Nat.add_assoc]

end

/-! ## JMP -/

theorem OperandPhase.jumpAbs (s : State) : OperandPhase s (jumpAbs s) :=
  ((OperandPhase.fetchTo latchDest_setADL s).trans (OperandPhase.fetchTo latchDest_setADH _)).trans (OperandPhase.setPC _ _)

theorem OperandPhase.fetchIndirect (s : State) : OperandPhase s (fetchIndirect s) :=
  (OperandPhase.fetchTo latchDest_setIAL s).trans (OperandPhase.fetchTo latchDest_setIAH _)

/-- The dummy read at PC - 1 after two operand bytes is of the second one again (R321, R322). -/
theorem jumpIndirectFixed_eq (s : State) :
    jumpIndirectFixed s =
      let u := dummyRead (s.pc + 1) (fetchIndirect s)
      setPC (readWord u.ia (u.ia + 1) u).ad (readWord u.ia (u.ia + 1) u) := by
  rw [← BitVec.add_sub_cancel (s.pc + 1) 1]
  rfl

theorem jumpIndexed_eq (s : State) :
    jumpIndexed s =
      let p := (fetchBase s).ba + zext16 s.x
      let u := setEA p (dummyRead (s.pc + 1) (fetchBase s))
      setPC (readWord p (p + 1) u).ad (readWord p (p + 1) u) := by
  rw [← BitVec.add_sub_cancel (s.pc + 1) 1]
  rfl

/-- Settles O48: JMP (abs) points to the word fetched, JMP (abs,X) to that word plus X. -/
theorem jumps : Obligations.Jumps := by
  intro s
  have indirect := OperandPhase.fetchIndirect s
  have base := (fetchBase_afterReads s).phase
  refine ⟨?abs, fun hclear => ?buggy, fun hset => ?fixed, ?iax⟩
  case abs =>
    have phase := OperandPhase.jumpAbs s
    exact ⟨_, rfl, rfl, rfl, phase.sameRegisters, phase.flags, phase.sameMemory, phase.sameControl⟩
  case buggy =>
    exact completes_jumpThrough indirect rfl rfl (execJmp_ind_buggy (Bool.eq_false_iff.mp hclear))
  case fixed =>
    exact completes_jumpThrough (indirect.trans (OperandPhase.dummyRead _ _)) rfl rfl
      ((execJmp_ind_fixed hset).trans (congrArg finish (jumpIndirectFixed_eq s)))
  case iax =>
    exact completes_jumpThrough ((base.trans (OperandPhase.dummyRead _ _)).trans (OperandPhase.setEA _ _)) rfl rfl
      (congrArg finish (jumpIndexed_eq s))

end Sys2Proof.Machine
end

section
/-! Subroutines and interrupts as instructions (R323 to R325, R330): the pushes of a return address, with the status byte below it,
and the pulls that take them back. -/

namespace Sys2Proof.Machine

open Sys2Proof.Certificates

/-! ## Pushes -/

/-- A push stores its byte at the stack address that SP names. -/
theorem push_storesAt {s : State} (hwf : Memory.wf s.mem = true) (v : Byte) : StoresAt (stackAddr s.sp) v s (push v s) :=
  (OperandPhase.refl s).writeCycle_storesAt hwf (stackAddr s.sp) v

/-- A return address pushed, high byte first (R323 c4, c5). -/
def pushWord (w : Word) (s : State) : State := push (loByte w) (push (hiByte w) s)

/-- Two pushes store the two bytes of the word and leave every other byte alone. -/
theorem pushWord_stores {s : State} (hwf : Memory.wf s.mem = true) (w : Word) :
    (∀ n : Nat, n ≠ (stackAddr s.sp).toNat → n ≠ (stackAddr (s.sp - 1)).toNat →
      Memory.get (pushWord w s).mem n = Memory.get s.mem n) ∧
    (s.isRam (stackAddr s.sp) = true → byteAt (pushWord w s) (stackAddr s.sp) = hiByte w) ∧
    (s.isRam (stackAddr (s.sp - 1)) = true → byteAt (pushWord w s) (stackAddr (s.sp - 1)) = loByte w) := by
  have hwf' := push_wf hwf (hiByte w)
  obtain ⟨keepsHi, _⟩ := push_storesAt hwf (hiByte w)
  obtain ⟨keepsLo, _⟩ := push_storesAt hwf' (loByte w)
  obtain ⟨hne, _⟩ := stackAddr_distinct s.sp
  refine ⟨fun n h0 h1 => (keepsLo n h1).trans (keepsHi n h0), fun hram => ?hi, fun hram => ?lo⟩
  case hi => exact (keepsLo _ hne).trans (push_byteAt hwf hram (hiByte w))
  case lo => exact push_byteAt (s := push (hiByte w) s) hwf' hram (loByte w)

/-- Three pushes store the two bytes of PC and the status byte and leave every other byte alone (R330, R407). -/
theorem pushFrame_stores {s : State} (hwf : Memory.wf s.mem = true) (b : Bool) :
    (∀ n : Nat, n ≠ (stackAddr s.sp).toNat → n ≠ (stackAddr (s.sp - 1)).toNat → n ≠ (stackAddr (s.sp - 2)).toNat →
      Memory.get (pushFrame b s).mem n = Memory.get s.mem n) ∧
    (s.isRam (stackAddr s.sp) = true → byteAt (pushFrame b s) (stackAddr s.sp) = hiByte s.pc) ∧
    (s.isRam (stackAddr (s.sp - 1)) = true → byteAt (pushFrame b s) (stackAddr (s.sp - 1)) = loByte s.pc) ∧
    (s.isRam (stackAddr (s.sp - 2)) = true → byteAt (pushFrame b s) (stackAddr (s.sp - 2)) = pushedStatus b s.flags) := by
  obtain ⟨keeps, hi, lo⟩ := pushWord_stores hwf s.pc
  have hwf' : Memory.wf (pushWord s.pc s).mem = true := push_wf (push_wf hwf _) _
  have stored := push_storesAt hwf' (pushedStatus b s.flags)
  have status := push_byteAt (s := pushWord s.pc s) (v := pushedStatus b s.flags) hwf'
  have hsp : (pushWord s.pc s).sp = s.sp - 2 := sub_one_sub_one s.sp
  rw [hsp] at stored status
  obtain ⟨keepsStatus, _⟩ := stored
  obtain ⟨_, hneHi, hneLo, _⟩ := stackAddr_distinct s.sp
  refine ⟨fun n h0 h1 h2 => (keepsStatus n h2).trans (keeps n h0 h1), fun hram => ?hi, fun hram => ?lo, status⟩
  case hi => exact (keepsStatus _ hneHi).trans (hi hram)
  case lo => exact (keepsStatus _ hneLo).trans (lo hram)

/-- The stack page lies below the vectors (R79, R80). -/
theorem pushFrame_get_above {s : State} (hwf : Memory.wf s.mem = true) (b : Bool) {n : Nat} (hn : 0x200 ≤ n) :
    Memory.get (pushFrame b s).mem n = Memory.get s.mem n := by
  have hne (sp : Byte) : n ≠ (stackAddr sp).toNat := by
    obtain ⟨_, _, _, hlt⟩ := stackAddr_distinct sp
    omega
  obtain ⟨keeps, _⟩ := pushFrame_stores hwf b
  exact keeps n (hne _) (hne _) (hne _)

/-- The status byte that BRK pushes has bits 5 and 4 set (R39). -/
theorem pushedStatus_true (f : Flags) : pushedStatus true f = statusByte f ||| 0x30 :=
  BitVec.or_assoc (statusByte f) 0x20 0x10

/-! ## JSR and BRK -/

/-- JSR after its pushes, the return address being that of its last byte (R323 c5). -/
def afterReturnAddress (s : State) : State := pushWord (s.pc + 1) (dummyRead (stackAddr s.sp) (fetchTo setADL s))

theorem exec_jsr_eq (s : State) :
    exec .jsr s = finish (setPC (word (busAnswer (s.pc + 1) (afterReturnAddress s)) (busAnswer s.pc s))
      (emit .call (readTo setADH (s.pc + 1) (afterReturnAddress s)))) := rfl

/-- Settles O49: the high byte is read from what the two pushes left. -/
theorem jumpToSubroutine : Obligations.JumpToSubroutine := by
  intro s hwf
  have pushed := pushWord_stores (s := dummyRead (stackAddr s.sp) (fetchTo setADL s)) hwf (s.pc + 1)
  refine ⟨_, exec_jsr_eq s, rfl, rfl, sub_one_sub_one s.sp, ?a, ?x, ?y, ?flags, ?control, pushed⟩
  case a | x | y | flags | control => simp [SameControl, afterReturnAddress, pushWord, readTo_eq, fetchTo_eq]

/-- The state in which BRK enters its handler: past the signature byte (R330 c2). -/
def afterSignature (s : State) : State := setPC (s.pc + 1) (readCycle s.pc s)

/-- Settles O52: the entry shared with the interrupts, after the signature byte; the pushes do not reach the vector. -/
theorem breakSequence : Obligations.BreakSequence := by
  intro s hwf
  rw [← pushedStatus_true]
  have history := pushFrame_history true (afterSignature s)
  have vector (addr : Word) (haddr : 0x200 ≤ addr.toNat) := pushFrame_get_above (s := afterSignature s) hwf true haddr
  obtain ⟨_, _, _, hsp, _, hflags⟩ := enterHandler_regs true true irqVector (afterSignature s)
  refine ⟨_, rfl, ?pc, ?history, ?flags, ?sp, rfl, rfl, rfl, ⟨rfl, rfl, rfl, rfl, rfl, rfl⟩,
    pushFrame_stores (s := afterSignature s) hwf true⟩
  case pc =>
    exact congrArg₂ word (busAnswer_eq_answerAt rfl (vector 0xFFFF (by decide)) (congrArg _ history) rfl)
      (busAnswer_eq_answerAt rfl (vector 0xFFFE (by decide)) history rfl)
  case history => exact congrArg (.hook .debug :: .read 0xFFFF (s.cycles + 5) :: .read 0xFFFE (s.cycles + 4) :: ·) history
  case flags => simpa [afterSignature] using hflags
  case sp => exact hsp

/-! ## RTS and RTI

A pull counts SP up and then reads (R15), and no answer of the bus depends on SP or the flags: so a return does the reads of its pulls
from a state in which SP, and for RTI the flags, have their last values already. -/

/-- SP after two and after three pulls. -/
theorem sp_add_two (b : Byte) : b + 2 = b + 1 + 1 := (BitVec.add_assoc b 1 1).symm

theorem sp_add_three (b : Byte) : b + 3 = b + 1 + 1 + 1 := by rw [← sp_add_two, BitVec.add_assoc]; rfl

/-- The two dummy reads of a return, at the PC and at the stack address of `s` (R324, R325), from another state `b`. -/
def returnReads (s b : State) : State := dummyRead (stackAddr s.sp) (dummyRead s.pc b)

theorem OperandPhase.returnReads (s b : State) : OperandPhase b (returnReads s b) :=
  (OperandPhase.dummyRead _ b).trans (OperandPhase.dummyRead _ _)

theorem exec_rts_eq (s : State) :
    exec .rts s =
      let u := readWord (stackAddr (s.sp + 1)) (stackAddr (s.sp + 2)) (returnReads s (setSP (s.sp + 2) s))
      finish (emit .ret (setPC (u.ad + 1) (dummyRead u.ad u))) := by
  rw [sp_add_two]
  rfl

/-- The state before RTI, but with SP and the flags as RTI leaves them. -/
def withPulledStatus (s : State) : State :=
  setStatusBits (busAnswer (stackAddr (s.sp + 1)) (returnReads s s)) (setSP (s.sp + 3) s)

theorem exec_rti_eq (s : State) :
    exec .rti s =
      let u := readWord (stackAddr (s.sp + 2)) (stackAddr (s.sp + 3))
        (readCycle (stackAddr (s.sp + 1)) (returnReads s (withPulledStatus s)))
      finish (emit .ret (setPC u.ad u)) := by
  rw [withPulledStatus, sp_add_three, sp_add_two]
  rfl

/-- An instruction that ends with the `return` hook after an operand phase. -/
theorem completes_return {i : Instr} {s b v : State} (phase : OperandPhase b v) (hexec : exec i s = finish (emit .ret v)) :
    Completes i s (fun t => t.pc = v.pc ∧ t.history = .hook .ret :: v.history ∧ t.flags = b.flags ∧
      t.sp = b.sp ∧ t.a = b.a ∧ t.x = b.x ∧ t.y = b.y ∧ SameMemory b t ∧ SameControl b t) :=
  ⟨_, hexec, rfl, rfl, phase.flags, phase.sp, phase.a, phase.x, phase.y, phase.sameMemory, phase.sameControl⟩

/-- Settles O50: after the pulls, one more dummy read at the word pulled. -/
theorem returnFromSubroutine : Obligations.ReturnFromSubroutine := by
  intro s
  have reads := OperandPhase.returnReads s (setSP (s.sp + 2) s)
  have pulled := reads.readWord_ad (k := 2) rfl rfl (stackAddr (s.sp + 1)) (stackAddr (s.sp + 2))
  obtain ⟨t, ht, hpc, hhistory, hflags, hsp, ha, hx, hy, hmem, hcontrol⟩ := completes_return
    ((reads.trans (OperandPhase.readWord _ _ _)).trans ((OperandPhase.dummyRead _ _).trans (OperandPhase.setPC _ _)))
    (exec_rts_eq s)
  rw [setPC_pc, pulled] at hpc
  rw [setPC_history, dummyRead_history, pulled] at hhistory
  exact ⟨t, ht, hpc, hhistory, hsp, ha, hx, hy, hflags, hmem, hcontrol⟩

/-- Settles O51: the status byte is pulled before the word, and its bits 5 and 4 go nowhere. (The model has a function of this
theorem's name, so it stands in a namespace of its own.) -/
theorem Settled.returnFromInterrupt : Obligations.ReturnFromInterrupt := by
  intro s
  have reads := (OperandPhase.returnReads s (withPulledStatus s)).trans (OperandPhase.readCycle (stackAddr (s.sp + 1)) _)
  have pulled := reads.readWord_ad (k := 3) rfl rfl (stackAddr (s.sp + 2)) (stackAddr (s.sp + 3))
  obtain ⟨t, ht, hpc, rest⟩ := completes_return
    ((reads.trans (OperandPhase.readWord _ _ _)).trans (OperandPhase.setPC _ _)) (exec_rti_eq s)
  exact ⟨t, ht, hpc.trans pulled, rest⟩

end Sys2Proof.Machine
end

section
/-! Entry and return undo each other (R328): a subroutine or handler that kept SP and the pushed bytes returns past the JSR, and
past BRK's signature byte. -/

namespace Sys2Proof.Machine

open Sys2Proof.Certificates

@[simp] theorem word_hiByte_loByte (w : Word) : word (hiByte w) (loByte w) = w :=
  (BitVec.extractLsb'_append_extractLsb'_eq_extractLsb' rfl).trans BitVec.extractLsb'_eq_self

/-- A byte pulled is the one that was in its place when the routine began, where the routine kept it. -/
theorem answerAt_kept {s t h : State} {addrs : List Word} (hstack : StackIsRam s) (hcfg : h.cfg = s.cfg)
    (hbytes : SameBytes addrs t h) ⦃sp v : Byte⦄ (hmem : stackAddr sp ∈ addrs)
    (hv : s.isRam (stackAddr sp) = true → byteAt t (stackAddr sp) = v) (k : Nat) (l : List BusEvent) :
    answerAt h k l (stackAddr sp) = v := by
  have hram : h.isRam (stackAddr sp) = true := by
    rw [State.isRam, hcfg]
    exact hstack sp
  calc answerAt h k l (stackAddr sp) = byteAt h (stackAddr sp) := if_pos hram
    _ = byteAt t (stackAddr sp) := hbytes _ hmem
    _ = v := hv (hstack sp)

/-- Settles O11: JSR left its address + 2 for RTS. -/
theorem jsrThenRtsReturns : Obligations.JsrThenRtsReturns := by
  intro s hwf hstack
  obtain ⟨t, ht, _, _, hsp, _, _, _, _, ⟨_, _, _, _, hcfg, _⟩, _, hi, lo⟩ := jumpToSubroutine s hwf
  refine ⟨t, ht, fun h hspt hbytes hcfgt => ?_⟩
  have pulled := answerAt_kept hstack (hcfgt.trans hcfg) hbytes
  obtain ⟨u, hu, hpc, _, hspu, ha, hx, hy, hflags, hmem, _⟩ := returnFromSubroutine h
  have hsp1 : h.sp + 1 = s.sp - 1 := by rw [hspt, hsp, ← sub_one_sub_one, BitVec.sub_add_cancel]
  have hsp2 : h.sp + 2 = s.sp := by rw [hspt, hsp, BitVec.sub_add_cancel]
  rw [hsp1, hsp2, pulled (by simp) hi, pulled (by simp) lo, word_hiByte_loByte] at hpc
  exact ⟨u, hu, hpc.trans (pc_add_two s.pc).symm, hspu.trans hsp2, hflags, ha, hx, hy, hmem⟩

/-- Settles O12: BRK left its address + 2 and the status byte for RTI. -/
theorem brkThenRtiSkipsTheSignature : Obligations.BrkThenRtiSkipsTheSignature := by
  intro s hwf hstack
  obtain ⟨t, ht, _, _, _, hsp, _, _, _, ⟨_, _, _, _, hcfg, _⟩, _, hi, lo, status⟩ := breakSequence s hwf
  refine ⟨t, ht, fun h hspt hbytes hcfgt => ?_⟩
  have pulled := answerAt_kept hstack (hcfgt.trans hcfg) hbytes
  obtain ⟨u, hu, hpc, _, hflags, hspu, ha, hx, hy, hmem, _⟩ := Settled.returnFromInterrupt h
  have hsp1 : h.sp + 1 = s.sp - 2 := by rw [hspt, hsp, ← sub_two_sub_one, BitVec.sub_add_cancel]
  have hsp2 : h.sp + 2 = s.sp - 1 := by rw [sp_add_two, hsp1, ← sub_one_sub_one, BitVec.sub_add_cancel]
  have hsp3 : h.sp + 3 = s.sp := by rw [hspt, hsp, BitVec.sub_add_cancel]
  rw [hsp2, hsp3, pulled (by simp) hi, pulled (by simp) lo, word_hiByte_loByte] at hpc
  rw [hsp1, pulled (by simp) status, ← pushedStatus_true] at hflags
  exact ⟨u, hu, hpc, hspu.trans hsp3, hflags.trans (statusFlags_pushedStatus true s.flags), ha, hx, hy, hmem⟩

end Sys2Proof.Machine
end

section
/-! Pushes and pulls (R350 to R359), the flag instructions (R360 to R366), the NOPs (R370 to R376) and the illegal-opcode stub
(R385): each is its reads, which change nothing, and at most one further effect. -/

namespace Sys2Proof.Machine

open Sys2Proof.Certificates

/-! ## Pushes -/

/-- An instruction that is the push sequence of `v`: the dummy read at PC, then the write at the stack address (R350). -/
theorem completes_pushByte {i : Instr} {v : Byte} {s : State} (hwf : Memory.wf s.mem = true) (hexec : exec i s = pushByte v s) :
    Completes i s (fun t =>
      StoresAt (stackAddr s.sp) v s t ∧ t.sp = s.sp - 1 ∧
        t.history = .write (stackAddr s.sp) v (s.cycles + 1) :: .read s.pc s.cycles :: s.history ∧
        t.pc = s.pc ∧ t.cycles = s.cycles + 2 ∧ t.a = s.a ∧ t.x = s.x ∧ t.y = s.y ∧ t.flags = s.flags ∧ SameControl s t) :=
  have phase := (implied_afterReads s).phase
  ⟨_, hexec, phase.writeCycle_storesAt hwf (stackAddr s.sp) v, rfl, rfl, rfl, rfl, phase.a, phase.x, phase.y, phase.flags,
    phase.sameControl⟩

/-- Settles O53: the four push A, X, Y and the status byte with B set. -/
theorem pushes : Obligations.Pushes := fun s hwf =>
  ⟨completes_pushByte hwf rfl, completes_pushByte hwf rfl, completes_pushByte hwf rfl,
    completes_pushByte hwf (congrArg (pushByte · s) (pushedStatus_true s.flags))⟩

/-! ## Pulls

As with the returns, the reads of a pull are those of a state `b` in which SP, the register and the flags have their last values
already. -/

/-- An instruction that makes the three reads of the pull sequence (R351) from `b`, at the addresses that `s` names. -/
theorem completes_pull {i : Instr} {s b : State}
    (hexec : exec i s = finish (readCycle (stackAddr (s.sp + 1)) (returnReads s b))) :
    Completes i s (fun t => t.a = b.a ∧ t.x = b.x ∧ t.y = b.y ∧ t.flags = b.flags ∧ t.sp = b.sp ∧
      t.history = .read (stackAddr (s.sp + 1)) (b.cycles + 2) :: .read (stackAddr s.sp) (b.cycles + 1) ::
        .read s.pc b.cycles :: b.history ∧
      t.pc = b.pc ∧ t.cycles = b.cycles + 3 ∧ SameMemory b t ∧ SameControl b t) :=
  have phase := (OperandPhase.returnReads s b).trans (OperandPhase.readCycle (stackAddr (s.sp + 1)) _)
  ⟨_, hexec, phase.a, phase.x, phase.y, phase.flags, phase.sp, rfl, rfl, rfl, phase.sameMemory, phase.sameControl⟩

/-- Settles O54: the byte that the last read answers goes into a register with SetNZ of it, or into the six flags. -/
theorem pulls : Obligations.Pulls := by
  intro s c h2 v pulled
  refine ⟨?pla, ?plx, ?ply, ?plp⟩
  case pla => exact completes_pull (b := setNZ v (setA v (setSP (s.sp + 1) s))) rfl
  case plx => exact completes_pull (b := setNZ v (setX v (setSP (s.sp + 1) s))) rfl
  case ply => exact completes_pull (b := setNZ v (setY v (setSP (s.sp + 1) s))) rfl
  case plp => exact completes_pull (b := setStatusBits v (setSP (s.sp + 1) s)) rfl

/-! ## Flag instructions -/

/-- The seven flag instructions are `flagOp` of their effect (R360 to R366). -/
theorem exec_of_flagEffect {i : Instr} {f : Flags → Flags} (h : flagEffect i = some f) (s : State) :
    exec i s = flagOp f s := by
  cases i with
  | clc | sec | cli | sei | cld | sed | clv => cases h; rfl
  | _ => cases h

/-- Settles O55: the dummy read at PC, then the flags alone. -/
theorem flagInstructions : Obligations.FlagInstructions := fun _ s _ h =>
  have reads := implied_afterReads s
  ⟨_, exec_of_flagEffect h s, rfl, reads.history, reads.phase.sameRegisters, reads.phase.sameMemory, reads.phase.sameControl⟩

/-! ## NOPs -/

/-- 0x5C reads its two operand bytes and then the address they name five times (R376). -/
theorem nopEight_afterReads (s : State) :
    AfterReads ([s.pc, s.pc + 1] ++ List.replicate 5 (word (operand2 s) (operand1 s))) s (nopEight s) := by
  have operand : AfterReads [s.pc, s.pc + 1] s (fetchTo setADH (fetchTo setADL s)) :=
    ⟨(OperandPhase.fetchTo latchDest_setADL s).trans (OperandPhase.fetchTo latchDest_setADH _), rfl, rfl⟩
  exact ((((operand.readCycle _).readCycle _).readCycle _).readCycle _).readCycle _

/-- A NOP makes the reads of its form and nothing else; PC is past the operand bytes of the form. -/
theorem completes_nop {f : NopForm} {s u : State} {reads : List Word} (hexec : exec (.nop f) s = finish u)
    (after : AfterReads reads s u) :
    Completes (.nop f) s (fun t =>
      t.history = historyAfter s reads ∧ t.pc = s.pc + BitVec.ofNat 16 (Instr.nop f).format.operandBytes ∧
      SameRegisters s t ∧ t.flags = s.flags ∧ SameMemory s t ∧ SameControl s t) := by
  have hpc := sequentialInstructionsAdvancePC (.nop f) s (endInstr u) hexec rfl
  rw [byteLength_of_not_isIllegal rfl, Nat.add_sub_cancel_left] at hpc
  have phase := after.phase
  exact ⟨_, hexec, after.history, hpc, phase.sameRegisters, phase.flags, phase.sameMemory, phase.sameControl⟩

/-- Settles O56: no read, the implied one, those of a load of the form's mode, or those of 0x5C. -/
theorem noOperations : Obligations.NoOperations := by
  intro f s
  cases f with
  | imp => exact completes_nop rfl (implied_afterReads s)
  | imp1 _ => exact completes_nop rfl (reads := []) ⟨.refl s, rfl, rfl⟩
  | imm _ => exact completes_nop rfl (loadOperand_afterReads .imm s)
  | zp => exact completes_nop rfl (loadOperand_afterReads (.mem .zp) s)
  | zpx _ => exact completes_nop rfl (loadOperand_afterReads (.mem .zpx) s)
  | abs _ => exact completes_nop rfl (loadOperand_afterReads (.mem .abs) s)
  | abs8 => exact completes_nop rfl (nopEight_afterReads s)

/-! ## The illegal-opcode stub -/

/-- With its opcode byte, an instruction is one byte longer than its operand. -/
theorem add_ofNat_add_one (w : Word) (n : Nat) : w + BitVec.ofNat 16 n + 1 = w + BitVec.ofNat 16 (1 + n) := by
  rw [Nat.add_comm, BitVec.ofNat_add, BitVec.add_assoc]
  rfl

/-- Settles O57: after the mark only PC moves, as in an operand phase, and the idle cycles advance the counters alone. -/
theorem illegalOpcodeStub : Obligations.IllegalOpcodeStub := by
  intro op s
  have phase := OperandPhase.setPC (s.pc + BitVec.ofNat 16 (s.cfg.illegalRow op).operandBytes.val) (markIllegal s)
  obtain ⟨_, ht, hcycles⟩ := cycleCountLaw (.illegal op) s
  cases ht
  exact ⟨_, rfl, phase.illegalSeen, add_ofNat_add_one _ _, hcycles, rfl, phase.sameRegisters, phase.flags, phase.sameMemory,
    phase.opcode, phase.nmi, phase.irq, phase.cfg, rfl⟩

end Sys2Proof.Machine
end

section
/-! What no instruction touches (R404, R412, R10, R50), and the hooks an instruction fires (R423): the answer is a boundary with the
pending latches, the configuration and the opcode register of the first state, and with the hooks of the instruction put out. -/

namespace Sys2Proof.Machine

open Sys2Proof.Certificates

/-- What belongs to the boundary step and the host: the pending latches, the configuration and the opcode register. -/
def boundaryControl (s : State) : Bool × Bool × Config × Byte :=
  (s.pendingNMI, s.pendingIRQ, s.cfg, s.opcode)

/-- From `s` to `u` exactly these hooks were fired, and nothing of the boundary step's was written. -/
def Fires (hooks : List Hook) (s u : State) : Prop :=
  boundaryControl u = boundaryControl s ∧ hookEvents u.history = hooks ++ hookEvents s.history

/-! ## The operand cycles fire no hook -/

theorem hookEvents_append (new old : List BusEvent) : hookEvents (new ++ old) = hookEvents new ++ hookEvents old :=
  List.filterMap_append

theorem hookEvents_readEvents (c : Nat) (reads : List Word) : hookEvents (readEvents c reads).reverse = [] := by
  induction reads generalizing c with
  | nil => rfl
  | cons a as ih =>
    rw [readEvents, List.reverse_cons, hookEvents_append, ih]
    rfl

theorem OperandPhase.boundaryControl_eq {s u : State} (h : OperandPhase s u) : boundaryControl u = boundaryControl s := by
  rw [boundaryControl, h.nmi, h.irq, h.cfg, h.opcode]
  rfl

theorem AfterReads.fires {reads : List Word} {s u : State} (h : AfterReads reads s u) : Fires [] s u := by
  refine ⟨h.phase.boundaryControl_eq, ?_⟩
  rw [h.history, historyAfter, hookEvents_append, hookEvents_readEvents]

theorem loadOperand_fires (m : ReadMode) (s : State) : Fires [] s (loadOperand m s) := (loadOperand_afterReads m s).fires

theorem storeOperand_fires (m : AddrMode) (v : Byte) (s : State) : Fires [] s (storeOperand m v s) :=
  (address_afterReads true m s).fires

theorem modifyOperand_fires (m : AddrMode) (f : Byte → Byte) (s : State) : Fires [] s (modifyOperand m f s) :=
  (address_afterReads true m s).fires

/-! ## The shapes of instruction that branch on their operand form or on a condition -/

theorem execBit_fires (m : ReadMode) (s : State) : EndsIn (Fires []) s (execBit m s) := by
  cases m with
  | imm => exact ⟨_, rfl, loadOperand_fires .imm s⟩
  | mem m => exact ⟨_, rfl, loadOperand_fires (.mem m) s⟩

theorem stepOperand_fires (f : Byte → Byte) (m : RmwMode) (s : State) : EndsIn (Fires []) s (stepOperand f m s) := by
  cases m with
  | acc => exact ⟨_, rfl, rfl, rfl⟩
  | mem m => exact ⟨_, rfl, modifyOperand_fires m f s⟩

theorem shiftOp_fires (f : Byte → Byte) (out : Nat) (m : RmwMode) (s : State) : EndsIn (Fires []) s (shiftOp f out m s) := by
  cases m with
  | acc => exact ⟨_, rfl, rfl, rfl⟩
  | mem m => exact ⟨_, rfl, modifyOperand_fires m f s⟩

/-- A branch goes on from a state `u` that its operand reads reached. -/
theorem takeBranch_if_fires {s u : State} (h : Fires [] s u) (cond : Bool) :
    Fires [] s (if cond then takeBranch u else u) := by
  cases cond with
  | false => exact h
  | true =>
    refine ⟨(OperandPhase.takeBranch u).boundaryControl_eq.trans h.1, Eq.trans ?_ h.2⟩
    rw [if_pos rfl, takeBranch_history]
    split <;> rfl

theorem execJmp_fires (m : JmpMode) (s : State) : EndsIn (Fires []) s (execJmp m s) := by
  cases m with
  | abs | iax => exact ⟨_, rfl, rfl, rfl⟩
  | ind =>
    by_cases fixed : s.cfg.jmpIndFixed = true
    · exact ⟨_, execJmp_ind_fixed fixed, rfl, rfl⟩
    · exact ⟨_, execJmp_ind_buggy fixed, rfl, rfl⟩

theorem execNop_fires (f : NopForm) (s : State) : EndsIn (Fires []) s (execNop f s) := by
  cases f with
  | imp | imp1 _ | abs8 => exact ⟨_, rfl, rfl, rfl⟩
  | imm _ | zp | zpx _ | abs _ => exact ⟨_, rfl, loadOperand_fires _ s⟩

/-! ## Every instruction -/

/-- Every instruction ends at a boundary, with its hooks fired. -/
theorem exec_fires (i : Instr) (s : State) : EndsIn (Fires (hooksFired i)) s (exec i s) := by
  cases i with
  | lda m | ldx m | ldy m | adc m | sbc m | cmp m | cpx m | cpy m | and m | ora m | eor m =>
    exact ⟨_, rfl, loadOperand_fires m s⟩
  | bit m => exact execBit_fires m s
  | sta m | stx m | sty m | stz m => exact ⟨_, rfl, storeOperand_fires m _ s⟩
  | inc m => exact stepOperand_fires (· + 1) m s
  | dec m => exact stepOperand_fires (· - 1) m s
  | asl m | lsr m | rol m | ror m => exact shiftOp_fires _ _ m s
  | tsb m => exact ⟨_, rfl, modifyOperand_fires m (· ||| s.a) s⟩
  | trb m => exact ⟨_, rfl, modifyOperand_fires m (· &&& (s.a ^^^ 0xFF)) s⟩
  | rmb0 | rmb1 | rmb2 | rmb3 | rmb4 | rmb5 | rmb6 | rmb7 | smb0 | smb1 | smb2 | smb3 | smb4 | smb5 | smb6 | smb7 =>
    exact ⟨_, rfl, modifyOperand_fires .zp _ s⟩
  | bcc | bcs | beq | bne | bmi | bpl | bvc | bvs | bra =>
    exact ⟨_, rfl, takeBranch_if_fires (u := afterOffset s) ⟨rfl, rfl⟩ _⟩
  | bbr0 | bbr1 | bbr2 | bbr3 | bbr4 | bbr5 | bbr6 | bbr7 | bbs0 | bbs1 | bbs2 | bbs3 | bbs4 | bbs5 | bbs6 | bbs7 =>
    exact ⟨_, rfl, takeBranch_if_fires (u := afterBitOffset s) ⟨rfl, rfl⟩ _⟩
  | jmp m => exact execJmp_fires m s
  | nop f => exact execNop_fires f s
  | jsr | rts | rti | brk => exact ⟨_, rfl, rfl, rfl⟩
  | pha | php | phx | phy | pla | plp | plx | ply => exact ⟨_, rfl, rfl, rfl⟩
  | tax | tay | txa | tya | tsx | txs | inx | iny | dex | dey => exact ⟨_, rfl, rfl, rfl⟩
  | clc | sec | cli | sei | cld | sed | clv => exact ⟨_, rfl, rfl, rfl⟩
  | illegal op => exact ⟨_, rfl, rfl, rfl⟩

theorem Fires.of_exec {i : Instr} {s t : State} (h : exec i s = .next t) : Fires (hooksFired i) s t := by
  obtain ⟨u, hu, rfl⟩ := (exec_fires i s).of_next h
  exact hu

/-- Settles O9: what belongs to the boundary step, part by part. -/
theorem instructionsKeepLatchesAndConfiguration : Obligations.InstructionsKeepLatchesAndConfiguration := by
  intro i s t h
  obtain ⟨control, -⟩ := Fires.of_exec h
  simpa only [boundaryControl, Prod.mk.injEq] using control

/-- Settles O24: the hooks that each instruction is listed to fire, before the earlier ones. (The statements' list `hooksFired` has
this theorem's name, so it stands in a namespace of its own.) -/
theorem Settled.hooksFired : Obligations.HooksFired := fun _ _ _ h => (Fires.of_exec h).2

end Sys2Proof.Machine
end

section
/-! From a boundary the step answers: with the interrupt sequence of the request it takes, or with the instruction that it runs
(R400, R403, R406). -/

namespace Sys2Proof.Machine

open Sys2Proof.Certificates

/-- The model's choice of interrupt is the spec's (R140, R405, R406). -/
theorem takes_iff (s : State) (k : Interrupt) : Takes s k ↔ pendingInterrupt s = some k := by
  unfold Takes pendingInterrupt
  cases s.pendingNMI <;> cases s.pendingIRQ <;> cases s.flags.i <;> simp [eq_comm]

/-- A step that takes an interrupt is its sequence. -/
theorem step_of_takes {s : State} {k : Interrupt} (ht : s.t = 0) (h : Takes s k) : step s = .next (takeInterrupt k s) := by
  rw [step, if_pos ht, (takes_iff s k).mp h]

/-- A boundary takes an interrupt or runs an instruction. -/
theorem takes_or_runsInstruction {s : State} (ht : s.t = 0) : (∃ k, Takes s k) ∨ RunsInstruction s := by
  cases h : pendingInterrupt s with
  | some k => exact .inl ⟨k, (takes_iff s k).mpr h⟩
  | none => exact .inr ((runsInstruction_iff s).mpr ⟨ht, h⟩)

/-- Every instruction ends at a boundary (R400, R49). -/
theorem exec_answers (i : Instr) (s : State) : ∃ t, exec i s = .next t ∧ t.t = 0 := by
  obtain ⟨u, hu, -⟩ := exec_fires i s
  exact ⟨endInstr u, hu, rfl⟩

/-- Settles O6: an interrupt sequence answers a boundary, and so does every instruction. -/
theorem everyBoundaryStepAnswersABoundary : Obligations.EveryBoundaryStepAnswersABoundary := by
  intro s ht
  obtain ⟨k, htakes⟩ | hruns := takes_or_runsInstruction ht
  · exact ⟨takeInterrupt k s, step_of_takes ht htakes, takeInterrupt_t k s⟩
  · rw [step_of_runsInstruction hruns]
    exact exec_answers _ _

/-- Settles O8: I set and no NMI leave the boundary to the instruction, which keeps the latch that the opcode fetch kept. -/
theorem maskedIrqStaysPending : Obligations.MaskedIrqStaysPending := by
  intro s ht hnmi hirq hi
  have hstep := stepRunsTheDecodedInstruction s _ ⟨ht, hnmi, .inr hi⟩ rfl
  obtain ⟨t, hexec, -⟩ := exec_answers (decodeOpcode s.cfg.variant (busAnswer s.pc s)) (afterFetch s)
  obtain ⟨-, kept, -⟩ := instructionsKeepLatchesAndConfiguration _ _ _ hexec
  exact ⟨t, hstep.trans hexec, kept.trans hirq, hstep⟩

end Sys2Proof.Machine
end

section
/-! The interrupt sequence (R407 to R412): two reads at PC, then the entry that it shares with BRK. RTI undoes it (R413, R415). -/

namespace Sys2Proof.Machine

open Sys2Proof.Certificates

/-- The state in which an interrupt enters its handler: the opcode read and discarded, PC read again, and the latch of the interrupt
cleared (R407 c1 and c2, R412). -/
def interruptEntry (k : Interrupt) (s : State) : State :=
  { s with
    opcode := busAnswer s.pc s
    pendingNMI := if k = .nmi then false else s.pendingNMI
    pendingIRQ := if k = .irq then false else s.pendingIRQ
    history := .read s.pc (s.cycles + 1) :: .read s.pc s.cycles :: s.history
    cycles := s.cycles + 2
    t := s.t + 2 }

theorem takeInterrupt_eq_enterHandler (k : Interrupt) (s : State) :
    takeInterrupt k s = endInstr (enterHandler s.cfg.hwIntPushedB (interruptClearsD s.cfg) (interruptVector k)
      (interruptEntry k s)) := by
  cases k <;> rfl

/-- The vectors of NMI and IRQ as R407 writes them. -/
theorem interruptVector_eq (k : Interrupt) : interruptVector k = if k = .nmi then 0xFFFA else 0xFFFE := by
  cases k <;> rfl

/-- Both bytes of a vector lie above the stack page (R79, R80). -/
theorem interruptVector_above_stack (k : Interrupt) :
    0x200 ≤ (interruptVector k).toNat ∧ 0x200 ≤ (interruptVector k + 1).toNat := by
  cases k <;> decide

/-- D is cleared on the 65C02, and on the NMOS part where the parameter says so (R410). -/
theorem interruptClearsD_iff (c : Config) :
    interruptClearsD c = true ↔ c.variant = .cmos65c02 ∨ c.nmosHwIntClearsD = true := by
  unfold interruptClearsD
  cases c.variant <;> simp

/-- A flag that is cleared under a condition. -/
theorem and_not_eq_ite {b clears : Bool} {p : Prop} [Decidable p] (h : clears = true ↔ p) :
    (b && !clears) = if p then false else b := by
  by_cases hp : p
  · rw [if_pos hp, h.mpr hp, Bool.not_true, Bool.and_false]
  · rw [if_neg hp, Bool.eq_false_iff.mpr (mt h.mp hp), Bool.not_false, Bool.and_true]

/-- Settles O7: the entry after the two reads at PC; its pushes do not reach the vector. -/
theorem interruptSequenceIsPrecise : Obligations.InterruptSequenceIsPrecise := by
  intro s k ht hwf htakes
  rw [← interruptVector_eq]
  intro vec c status h5 h6 clearsD
  have hstep := step_of_takes ht htakes
  rw [takeInterrupt_eq_enterHandler] at hstep
  have history : (pushFrame s.cfg.hwIntPushedB (interruptEntry k s)).history = h5 := pushFrame_history _ _
  have vector (addr : Word) (haddr : 0x200 ≤ addr.toNat) :=
    pushFrame_get_above (s := interruptEntry k s) hwf s.cfg.hwIntPushedB haddr
  obtain ⟨hlo, hhi⟩ := interruptVector_above_stack k
  obtain ⟨_, _, _, hsp, _, hflags⟩ := enterHandler_regs s.cfg.hwIntPushedB (interruptClearsD s.cfg) vec (interruptEntry k s)
  refine ⟨_, hstep, ?pc, ?history, rfl, rfl, rfl, rfl, rfl, hsp, ?flags, rfl, rfl, rfl, rfl, rfl,
    pushFrame_stores (s := interruptEntry k s) hwf s.cfg.hwIntPushedB⟩
  case pc =>
    exact congrArg₂ word (busAnswer_eq_answerAt rfl (vector _ hhi) (congrArg _ history) rfl)
      (busAnswer_eq_answerAt rfl (vector _ hlo) history rfl)
  case history => exact congrArg (.read (vec + 1) (c + 6) :: .read vec (c + 5) :: ·) history
  case flags =>
    rw [← and_not_eq_ite (interruptClearsD_iff s.cfg)]
    exact hflags

/-- RTI where the three bytes of an entry that began at the stack pointer `sp` are a return address and a status byte. -/
theorem completes_rti_of_kept {h : State} {sp : Byte} {w : Word} {status : Byte} (hsp : h.sp = sp - 3)
    (hi : ∀ k l, answerAt h k l (stackAddr sp) = hiByte w) (lo : ∀ k l, answerAt h k l (stackAddr (sp - 1)) = loByte w)
    (hstatus : ∀ k l, answerAt h k l (stackAddr (sp - 2)) = status) :
    Completes .rti h (fun u => u.pc = w ∧ u.flags = statusFlags status ∧ u.sp = sp ∧
      u.a = h.a ∧ u.x = h.x ∧ u.y = h.y ∧ SameMemory h u) := by
  obtain ⟨u, hu, hpc, _, hflags, hspu, ha, hx, hy, hmem, _⟩ := Settled.returnFromInterrupt h
  have hsp1 : h.sp + 1 = sp - 2 := by rw [hsp, ← sub_two_sub_one, BitVec.sub_add_cancel]
  have hsp2 : h.sp + 2 = sp - 1 := by rw [sp_add_two, hsp1, ← sub_one_sub_one, BitVec.sub_add_cancel]
  have hsp3 : h.sp + 3 = sp := by rw [hsp, BitVec.sub_add_cancel]
  rw [hsp2, hsp3, hi, lo, word_hiByte_loByte] at hpc
  rw [hsp1, hstatus] at hflags
  exact ⟨u, hu, hpc, hflags, hspu.trans hsp3, ha, hx, hy, hmem⟩

/-- Settles O10: the entry left PC and the status byte for RTI, and the status byte holds all six flags. -/
theorem interruptThenRtiResumes : Obligations.InterruptThenRtiResumes := by
  intro s k ht hwf hstack htakes
  obtain ⟨t, hstep, _, _, _, _, _, _, _, hsp, _, _, _, _, _, hcfg, _, hi, lo, status⟩ :=
    interruptSequenceIsPrecise s k ht hwf htakes
  refine ⟨t, hstep, fun h hspt hbytes hcfgt => ?_⟩
  have pulled := answerAt_kept hstack (hcfgt.trans hcfg) hbytes
  rw [← statusFlags_pushedStatus s.cfg.hwIntPushedB s.flags]
  exact completes_rti_of_kept (hspt.trans hsp) (pulled (by simp) hi) (pulled (by simp) lo) (pulled (by simp) status)

end Sys2Proof.Machine
end

section
/-! Reset (R450, R451): the vector is read as the bus answers at the boundary, then the draws are put in. -/

namespace Sys2Proof.Machine

open Sys2Proof.Certificates

/-- A reset at a boundary is its effect. -/
theorem hostReset_of_boundary {s : State} (ht : s.t = 0) (d : ResetDraws) : hostReset d s = .next (resetCore d s) := if_pos ht

/-- PC is the word that two consecutive cycles read at the reset vector. -/
theorem resetCore_pc (d : ResetDraws) (s : State) :
    (resetCore d s).pc = word (answerAt s 1 (.read 0xFFFC s.cycles :: s.history) 0xFFFD) (answerAt s 0 s.history 0xFFFC) :=
  congrArg₂ word (busAnswer_eq_answerAt rfl rfl rfl rfl) (busAnswer_eq_answerAt rfl rfl rfl rfl)

/-- Settles O58: the two reads of the vector are reset's only accesses; beside PC it writes the draws, T and the cleared latches.
(The model's function `hostReset` has this theorem's name, so it stands in a namespace of its own.) -/
theorem Settled.hostReset : Obligations.HostReset := fun d s ht =>
  ⟨resetCore d s, hostReset_of_boundary ht d, resetCore_pc d s, Progress.resetCore_history d s,
    rfl, rfl, rfl, rfl, rfl, rfl, rfl, rfl, rfl, rfl, rfl, rfl, fun _ => rfl⟩

end Sys2Proof.Machine
end

section
/-! The double write of R460: every read-modify-write instruction is `modifyOperand` by its byte function, then a change of flags,
so its last three accesses are those of `modifyOperand` (R151). -/

namespace Sys2Proof.Machine

open Sys2Proof.Certificates

/-- A read-modify-write ends with the read, the write of the byte read, and the write of the result (R151, R155, R158, R162). -/
theorem modifyOperand_history (m : AddrMode) (f : Byte → Byte) (s : State) :
    let u := address true m s
    let old := oldByte m s
    (modifyOperand m f s).history =
      .write u.lat.ea (f old) (u.cycles + 2) :: .write u.lat.ea old (u.cycles + 1) :: .read u.lat.ea u.cycles :: u.history :=
  rfl

/-- TRB with the complement of A as the rule writes it (R279). -/
theorem exec_trb (m : AddrMode) (s : State) :
    exec (.trb m) s = finish (testBits (oldByte m s) (modifyOperand m (· &&& ~~~s.a) s)) := by
  rw [← xor_0xFF]
  rfl

/-- A read-modify-write instruction is `modifyOperand` by its byte function, and writes at most the flags besides. -/
theorem exec_of_rmwOf {i : Instr} {s : State} {m : AddrMode} {f : Byte → Byte} (h : rmwOf i s = some (m, f)) :
    ∃ flags, exec i s = finish { modifyOperand m f s with flags := flags } := by
  cases i with
  | asl r | lsr r | inc r | dec r =>
    cases r with
    | acc => cases h
    | mem => cases h; exact ⟨_, rfl⟩
  | rol r =>
    cases r with
    | acc => cases h
    | mem => cases h; exact ⟨_, exec_rol _ s⟩
  | ror r =>
    cases r with
    | acc => cases h
    | mem => cases h; exact ⟨_, exec_ror _ s⟩
  | tsb => cases h; exact ⟨_, rfl⟩
  | trb => cases h; exact ⟨_, exec_trb _ s⟩
  | rmb0 | rmb1 | rmb2 | rmb3 | rmb4 | rmb5 | rmb6 | rmb7 | smb0 | smb1 | smb2 | smb3 | smb4 | smb5 | smb6 | smb7 =>
    cases h
    exact ⟨_, rfl⟩
  | _ => cases h

/-- Settles O45: the accesses of `modifyOperand`, which a change of the flags leaves last. -/
theorem readModifyWriteWritesTwice : Obligations.ReadModifyWriteWritesTwice := by
  intro i s m f h
  obtain ⟨flags, hexec⟩ := exec_of_rmwOf h
  exact ⟨_, hexec, modifyOperand_history m f s⟩

end Sys2Proof.Machine
end

section
/-! `advanceClock` (R470, R175): every step takes at least one cycle, so the budget bounds the number of steps, and the run ends for
one of its two reasons. -/

namespace Sys2Proof.Machine

open Sys2Proof.Certificates

/-! ## A step takes time -/

/-- An instruction never turns the cycle counter back; the stub's idle cycles count too (R385). -/
theorem exec_cycles_le {i : Instr} {s t : State} (h : exec i s = .next t) : s.cycles ≤ t.cycles := by
  obtain hi | ⟨op, rfl⟩ := isIllegal_eq_false_or i
  · obtain ⟨u, hu, progress⟩ := exec_progress i hi s
    cases hu.symm.trans h
    exact progress.cycles_le
  · cases h
    exact Nat.le_add_right _ _

/-- Every step takes a cycle: seven for an interrupt sequence, and at least the opcode fetch for an instruction (R141, R407). -/
theorem step_cycles_lt {s t : State} (h : step s = .next t) : s.cycles < t.cycles := by
  obtain ⟨-, ⟨k, -, rfl⟩ | ⟨-, hrun⟩⟩ := step_cases h
  · rw [takeInterrupt_cycles]
    omega
  · exact exec_cycles_le hrun

/-! ## How a run ends -/

/-- The run from `s` ends after `n` steps in `t`: the first boundary at which the limit is reached, or the stop condition holds
after an instruction (R470). -/
def RunEnds (stop : State → Bool) (limit : Nat) (s : State) (n : Nat) (t : State) : Prop :=
  stepTimes n s = .next t ∧ t.t = 0 ∧ (limit ≤ t.cycles ∨ (0 < n ∧ stop t = true)) ∧
    ∀ k, k < n → ∃ u, stepTimes k s = .next u ∧ u.cycles < limit ∧ (0 < k → stop u = false)

section
variable {stop : State → Bool} {limit n : Nat} {s t v : State}

/-- At the limit no step runs. -/
theorem RunEnds.of_le (ht : s.t = 0) (h : limit ≤ s.cycles) : RunEnds stop limit s 0 s :=
  ⟨rfl, ht, .inl h, nofun⟩

/-- The stop condition holds after one step. -/
theorem RunEnds.of_stop (hlt : s.cycles < limit) (hstep : step s = .next t) (ht : t.t = 0) (hstop : stop t = true) :
    RunEnds stop limit s 1 t := by
  refine ⟨stepTimes_succ hstep 0, ht, .inr ⟨Nat.one_pos, hstop⟩, fun k hk => ?_⟩
  obtain rfl : k = 0 := Nat.lt_one_iff.mp hk
  exact ⟨s, rfl, hlt, nofun⟩

/-- One step more before a run, where the run's first state does not stop it. -/
theorem RunEnds.cons (hlt : s.cycles < limit) (hstep : step s = .next t) (hstop : stop t = false)
    (h : RunEnds stop limit t n v) : RunEnds stop limit s (n + 1) v := by
  obtain ⟨hrun, hv, hend, hbefore⟩ := h
  refine ⟨(stepTimes_succ hstep n).trans hrun, hv, hend.imp_right fun ⟨_, hs⟩ => ⟨n.succ_pos, hs⟩, fun k hk => ?_⟩
  cases k with
  | zero => exact ⟨s, rfl, hlt, nofun⟩
  | succ k =>
    obtain ⟨u, hu, hult, hustop⟩ := hbefore k (Nat.lt_of_succ_lt_succ hk)
    refine ⟨u, (stepTimes_succ hstep k).trans hu, hult, fun _ => ?_⟩
    obtain rfl | hk := k.eq_zero_or_pos
    · cases hu
      exact hstop
    · exact hustop hk

end

/-- With fuel for one step a cycle, a run below the limit ends for one of its two reasons, never for want of fuel. -/
theorem runBelow_ends (stop : State → Bool) (limit fuel : Nat) (s : State) (ht : s.t = 0) (hfuel : limit ≤ s.cycles + fuel) :
    ∃ n t, runBelow stop limit fuel s = .next t ∧ RunEnds stop limit s n t := by
  induction fuel generalizing s with
  | zero => exact ⟨0, s, rfl, .of_le ht hfuel⟩
  | succ fuel ih =>
    obtain hlt | hle := Nat.lt_or_ge s.cycles limit
    · obtain ⟨t, hstep, htt⟩ := everyBoundaryStepAnswersABoundary s ht
      have hrun := runBelow_of_lt hlt hstep stop fuel
      cases hstop : stop t with
      | true => exact ⟨1, t, hrun.trans (if_pos hstop), .of_stop hlt hstep htt hstop⟩
      | false =>
        have htime := step_cycles_lt hstep
        obtain ⟨n, v, hv, hends⟩ := ih t htt (by omega)
        exact ⟨n + 1, v, hrun.trans ((if_neg (ne_true_of_eq_false hstop)).trans hv), hends.cons hlt hstep hstop⟩
    · exact ⟨0, s, runBelow_of_le hle stop fuel, .of_le ht hle⟩

/-- Settles O60: the budget is fuel enough for a run to the limit `s.cycles + budget`. -/
theorem advanceClockRunsUntilBudgetOrStop : Obligations.AdvanceClockRunsUntilBudgetOrStop := fun stop budget s ht =>
  runBelow_ends stop (s.cycles + budget) budget s ht (Nat.le_refl _)

end Sys2Proof.Machine
end
